-- ==== Sys2Proof/Word.lean ====
section
/-! DEFINITION. The word types of the PLC-RPC block: widths of 00_scope.md R8. -/

namespace Sys2Proof

/-- A byte of a bus frame (R8: a command code is one byte). -/
abbrev Byte := BitVec 8

/-- A 16-bit device register value (R8). -/
abbrev Word := BitVec 16

/-- A 7-bit bus address (R8, R23). -/
abbrev BusAddr := BitVec 7

end Sys2Proof
end

