-- ==== Sys2Proof/Syntax.lean ====
section
/-! DEFINITION. The operations of the block (30_encoding.md R79, one constructor per row of
spec/opcode_table.json) and the record types of their operands and results (R74 to R77).
A name with `Codes` is the numeric interface of R96 and D38: field codes as numbers, which may be out
of range. -/

namespace Sys2Proof

/-! Enumerated fields of ZMDIConfig1 (R74); the first constructor has code 0. -/

inductive ClockSpeed where
  | mhz4
  | mhz1
deriving DecidableEq, Repr

inductive CommType where
  | nativeBus
  | altBus
deriving DecidableEq, Repr

inductive SleepMode where
  | continuous
  | onDemand
deriving DecidableEq, Repr

inductive UpdateRate where
  | fastest
  | faster
  | slower
  | slowest
deriving DecidableEq, Repr

inductive CurveShape where
  | parabolic
  | sShaped
deriving DecidableEq, Repr

/-- ZMDIConfig1's polarity-sign flags: 0 = positive (R64, R66). -/
inductive Polarity where
  | positive
  | negative
deriving DecidableEq, Repr

/-- ZMDIConfig1 record (R74). -/
structure ZmdiConfig1 where
  clockSpeed : ClockSpeed
  commType : CommType
  sleepMode : SleepMode
  updateRate : UpdateRate
  curveShape : CurveShape
  polTco : Polarity
  polTcg : Polarity
  polSotBridge : Polarity
  polSotOffsetTemp : Polarity
  polSotGainTemp : Polarity
  polSotLinTemp : Polarity
deriving DecidableEq, Repr

/-- ZMDIConfig1 record with its fields as numeric codes (R96 "Where a model's interface carries field
codes as numbers", D38). -/
structure ZmdiConfig1Codes where
  clockSpeed : Nat
  commType : Nat
  sleepMode : Nat
  updateRate : Nat
  curveShape : Nat
  polTco : Nat
  polTcg : Nat
  polSotBridge : Nat
  polSotOffsetTemp : Nat
  polSotGainTemp : Nat
  polSotLinTemp : Nat
deriving DecidableEq, Repr

/-- ZMDIConfig2's alt-bus polarity: 0 = NEGATIVE, the inverted sense (R67, R75). -/
inductive AltBusPolarity where
  | negative
  | positive
deriving DecidableEq, Repr

/-- A lock field of ZMDIConfig2 (R68, R75). -/
inductive Lock where
  | unlocked
  | locked
deriving DecidableEq, Repr

/-- ZMDIConfig2 record (R75). -/
structure ZmdiConfig2 where
  altBusPolarity : AltBusPolarity
  connCheck : Bool
  shortCheck : Bool
  address : BusAddr
  addrLock : Lock
  eepromLock : Lock
deriving DecidableEq, Repr

/-- ZMDIConfig2 record with its coded fields as numbers (R98, D38). -/
structure ZmdiConfig2Codes where
  altBusPolarity : Nat
  connCheck : Nat
  shortCheck : Nat
  address : Nat
  addrLock : Lock
  eepromLock : Lock
deriving DecidableEq, Repr

/-- Preamp gain selector of BridgeConfig (R70, R76). -/
inductive PreampGain where
  | g1_5
  | g3
  | g6
  | g12
  | g24
  | g48
  | g96
  | g192
deriving DecidableEq, Repr

/-- Mux mode of BridgeConfig; `invalid c` carries the invalid code c ∈ 0, 1 (R76, D19). -/
inductive MuxMode where
  | fullBridge
  | halfBridge
  | invalid (code : BitVec 1)
deriving DecidableEq, Repr

/-- BridgeConfig record (R76). -/
structure BridgeConfig where
  preampOffset : BitVec 4
  preampGain : PreampGain
  polarity : BitVec 1
  longIntegration : Bool
  bSink : Bool
  mux : MuxMode
  disableNulling : Bool
deriving DecidableEq, Repr

/-- BridgeConfig record with its coded fields as numbers (R100, D38). -/
structure BridgeConfigCodes where
  preampOffset : Nat
  preampGain : PreampGain
  polarity : Nat
  longIntegration : Nat
  bSink : Nat
  mux : MuxMode
  disableNulling : Nat
deriving DecidableEq, Repr

/-- FactoryID record (R77, D20). -/
structure FactoryId where
  lotNumber : BitVec 19
  waferNumber : BitVec 5
  waferXCoordinate : BitVec 7
  waferYCoordinate : BitVec 16
deriving DecidableEq, Repr

/-- The block's operations (R79), in the order of spec/opcode_table.json. Naturals may be out of range:
the operation then answers RangeError/FieldRange. -/
inductive Instr where
  | pwrcyc
  | startcm
  | startnom
  | rdreg (r : Nat)
  | wrreg (r v : Nat)
  | rdsample
  | sleep (t : Nat)
  | setaddr (a : Nat)
  | encCfg1 (rec : ZmdiConfig1Codes)
  | decCfg1 (v : Word)
  | encCfg2 (rec : ZmdiConfig2Codes)
  | decCfg2 (v : Word)
  | encBridge (rec : BridgeConfigCodes)
  | decBridge (v : Word)
  | decFactid (c0 c1 c2 : Word)
  | encGain (g : BitVec 32)
  | decGain (v : Word)
deriving DecidableEq, Repr

end Sys2Proof
end

