-- ==== Sys2Proof/Config.lean ====
section
/-! DEFINITION. What an implementation fixes (00_scope.md R10, R11) and the free values of the model.
An OPEN parameter is a constant with no body: no proof can learn its value. -/

namespace Sys2Proof

/-- `MODE_GUARD` (R10, R85, C7): whether operations in the wrong tracked state are refused. -/
inductive ModeGuard where
  | enforce
  | passthrough
deriving DecidableEq, Repr, Inhabited

/-- A level the block drives on the power-control line (R25, R32). -/
inductive Level where
  | low
  | high
deriving DecidableEq, Repr, Inhabited

/-- What the transport reports for one bus transaction (R31): a failure (nonzero status), or success
together with the bytes delivered (which a write does not look at). -/
inductive TransportReply where
  | failed
  | done (bytes : List Byte)
deriving DecidableEq, Repr, Inhabited

/-- The configuration parameters of R10, fixed for a run (R30). Times are in microseconds.
`BUS_CLOCK` is absent: R10 and D36 say it is not modelled. -/
structure Config where
  /-- `NREG`: number of device register indices. -/
  nreg : Nat
  /-- `WR_OFFSET`: write code = `WR_OFFSET + index`. -/
  wrOffset : Nat
  /-- `CMD_START_CM`: enter-command-mode code. -/
  cmdStartCm : Byte
  /-- `CMD_START_NOM`: enter-normal-operation code. -/
  cmdStartNom : Byte
  /-- `STATUS_OK`: required byte 0 of a register read reply. -/
  statusOk : Byte
  /-- `T_PWR_LOW`: hold time with the power line low. -/
  tPwrLow : Nat
  /-- `T_PWR_HIGH`: hold time with the power line high. -/
  tPwrHigh : Nat
  /-- `T_CM_SETTLE`: settle after `CMD_START_CM`. -/
  tCmSettle : Nat
  /-- `T_RD_DELAY`: wait between the read command and the reply read. -/
  tRdDelay : Nat
  /-- `T_WR_SETTLE`: time owed after a register write. -/
  tWrSettle : Nat
  /-- `MODE_GUARD`. -/
  modeGuard : ModeGuard
  /-- `INITIAL_ADDRESS`: bus address at reset. -/
  initialAddress : BusAddr
  /-- `PWR_RESET`: power-line level at reset; `none` is "undriven" (R29, D6). -/
  pwrReset : Option Level
  /-- `REG_CONFIG1`: index of ZMDIConfig1 (R40). -/
  regConfig1 : Nat
  /-- `REG_CONFIG2`: index of ZMDIConfig2 (R40). -/
  regConfig2 : Nat
  /-- `REG_BRIDGE`: index of BridgeConfig (R40). -/
  regBridge : Nat
  /-- `REG_GAIN`: index of GainValue (R40). -/
  regGain : Nat
  /-- `REG_CUST_ID0`: index of customer ID 0; IDs 1 and 2 follow (R40, R104). -/
  regCustId0 : Nat
  /-- `REG_OFFSET`: index of the factory offset register (R40). -/
  regOffset : Nat
  /-- `FACTORY_OFFSET_VALUE`. -/
  factoryOffsetValue : Word
deriving DecidableEq, Repr

namespace Config

/-! The OPEN parameters of R10 (D6, D25). Logs 5 and 6. -/

/-- `INITIAL_ADDRESS` of this hardware: OPEN, any 7-bit address (R10, R42). -/
opaque openInitialAddress : BusAddr
/-- `PWR_RESET` of this hardware: OPEN, possibly undriven (R10, R29). -/
opaque openPwrReset : Option Level
/-- `REG_CONFIG1` of this hardware: OPEN, an index in 0x00..0x13 (R11). -/
opaque openRegConfig1 : Fin 20
/-- `REG_CONFIG2` of this hardware: OPEN (R11). -/
opaque openRegConfig2 : Fin 20
/-- `REG_BRIDGE` of this hardware: OPEN (R11). -/
opaque openRegBridge : Fin 20
/-- `REG_GAIN` of this hardware: OPEN (R11). -/
opaque openRegGain : Fin 20
/-- `REG_CUST_ID0` of this hardware: OPEN, with `REG_CUST_ID0 + 2 ≤ 0x13` (R11). -/
opaque openRegCustId0 : Fin 18
/-- `REG_OFFSET` of this hardware: OPEN (R11). -/
opaque openRegOffset : Fin 20
/-- `FACTORY_OFFSET_VALUE` of this hardware: OPEN (R10). -/
opaque openFactoryOffsetValue : Word

/-- The value column of R10: the parameters this hardware takes. -/
def thisHardware : Config where
  nreg := 20
  wrOffset := 0x40
  cmdStartCm := 0xA0
  cmdStartNom := 0x80
  statusOk := 0x5A
  tPwrLow := 500
  tPwrHigh := 500
  tCmSettle := 100
  tRdDelay := 100
  tWrSettle := 150000
  modeGuard := .enforce
  initialAddress := openInitialAddress
  pwrReset := openPwrReset
  regConfig1 := openRegConfig1.val
  regConfig2 := openRegConfig2.val
  regBridge := openRegBridge.val
  regGain := openRegGain.val
  regCustId0 := openRegCustId0.val
  regOffset := openRegOffset.val
  factoryOffsetValue := openFactoryOffsetValue

/-- The parameters that encode frames have the source's literal values (R5, R10, R57). -/
def hasSourceCodes (c : Config) : Bool :=
  c.nreg == 20 && c.wrOffset == 0x40 && c.cmdStartCm == 0xA0 && c.cmdStartNom == 0x80 &&
    c.statusOk == 0x5A

/-- The only constraints R11 puts on the register-role parameters. -/
def rolesInRange (c : Config) : Bool :=
  decide (c.regConfig1 < c.nreg) && decide (c.regConfig2 < c.nreg) && decide (c.regBridge < c.nreg) &&
    decide (c.regGain < c.nreg) && decide (c.regCustId0 + 2 < c.nreg) && decide (c.regOffset < c.nreg)

/-- FREE VALUE (R33, D27, log 1): the transport's reply to the n-th bus transaction of a run, where
`State.answers` does not fix it. -/
opaque oracle : Nat → TransportReply

/-- FREE VALUE (R96, D38, log 7): which of several out-of-range field codes a `FieldRange` error reports; the
spec gives the codes no order. It is a function of the whole encode operation, its record included, since R103
makes the codecs functions of their operands; nothing relates it for two different operations. -/
opaque reportedField : Instr → Nat

end Config

end Sys2Proof
end

