-- ==== Sys2Proof/Machine/Bits.lean ====
section
/-! DEFINITION. Bit fields and byte order (00_scope.md R12, R14; 20_memory.md R43, R44). -/

namespace Sys2Proof.Machine

/-- `v[i]`, bit 0 the least significant (R12). -/
def bit (v : Word) (i : Nat) : Bool := v.getLsbD i

/-- The field of `width` bits of `v` whose lowest bit is bit `lo`: `v[lo+width-1 : lo]` (R12). -/
def field (v : Word) (lo width : Nat) : BitVec width := v.extractLsb' lo width

/-- `code << lo` in a 16-bit register value. -/
def place (code lo : Nat) : Word := BitVec.ofNat 16 code <<< lo

/-- `v[15:8]`. -/
def hiByte (v : Word) : Byte := field v 8 8

/-- `v[7:0]`. -/
def loByte (v : Word) : Byte := field v 0 8

/-- `(d1 << 8) | d0`: the big-endian payload (R43, R61). -/
def bigEndian (d1 d0 : Byte) : Word := (d1.setWidth 16 <<< 8) ||| d0.setWidth 16

/-- `((b0 & 0x3F) << 8) | b1`: the 14-bit sample of frame SAMPLE2; the two status bits `b0[7:6]` are
discarded (R44, R62, R91). -/
def sampleValue (b0 b1 : Byte) : Word := ((b0 &&& 0x3F).setWidth 16 <<< 8) ||| b1.setWidth 16

end Sys2Proof.Machine
end

