-- ==== Sys2Proof/Machine/Operands.lean ====
section
/-! DEFINITION. Operand forms: the numeric field codes of 30_encoding.md R64 to R71 and R74 to R76, the
range checks of D38, and the exact value of a binary32 operand (R78, R106). -/

namespace Sys2Proof

/-! Field codes, both ways. -/

def ClockSpeed.code : ClockSpeed → Nat
  | .mhz4 => 0
  | .mhz1 => 1

def CommType.code : CommType → Nat
  | .nativeBus => 0
  | .altBus => 1

def SleepMode.code : SleepMode → Nat
  | .continuous => 0
  | .onDemand => 1

/-- Update-rate codes (R65). -/
def UpdateRate.code : UpdateRate → Nat
  | .fastest => 0
  | .faster => 1
  | .slower => 2
  | .slowest => 3

def CurveShape.code : CurveShape → Nat
  | .parabolic => 0
  | .sShaped => 1

def Polarity.code : Polarity → Nat
  | .positive => 0
  | .negative => 1

/-- Alt-bus polarity: the inverted sense of R67. -/
def AltBusPolarity.code : AltBusPolarity → Nat
  | .negative => 0
  | .positive => 1

/-- `lockEnc` (R68, R98). -/
def Lock.code : Lock → Nat
  | .locked => 0b011
  | .unlocked => 0b000

/-- `gainCode`, "a fixed non-monotonic 8-entry table" (R70, R100). -/
def PreampGain.code : PreampGain → Nat
  | .g1_5 => 0b000
  | .g3 => 0b100
  | .g6 => 0b001
  | .g12 => 0b101
  | .g24 => 0b010
  | .g48 => 0b110
  | .g96 => 0b011
  | .g192 => 0b111

/-- `muxCode` (R71, R100); an `invalid` mux has no encoding and is never encoded. -/
def MuxMode.code : MuxMode → Nat
  | .fullBridge => 0b10
  | .halfBridge => 0b11
  | .invalid c => c.toNat

/-- `true` has code 1 (D16). -/
def flagCode (b : Bool) : Nat := if b then 1 else 0

/-- `[Fastest, Faster, Slower, Slowest][c]` (R97). -/
def updateRateOf (c : BitVec 2) : UpdateRate :=
  if c = 0 then .fastest else if c = 1 then .faster else if c = 2 then .slower else .slowest

def polarityOf (b : Bool) : Polarity := if b then .negative else .positive

/-- `lockDec`: `Locked` for exactly 0b011 (R68, R99). -/
def lockOf (x : BitVec 3) : Lock := if x = 0b011 then .locked else .unlocked

/-- `gainOf`: the g with `gainCode(g) = c` (R70, R101). -/
def preampGainOf (c : BitVec 3) : PreampGain :=
  if c = 0b000 then .g1_5 else if c = 0b100 then .g3 else if c = 0b001 then .g6
  else if c = 0b101 then .g12 else if c = 0b010 then .g24 else if c = 0b110 then .g48
  else if c = 0b011 then .g96 else .g192

/-- Mux decode: no default, an unmapped code is carried (R71, R101). -/
def muxOf (m : BitVec 2) : MuxMode :=
  if m = 0b10 then .fullBridge else if m = 0b11 then .halfBridge else .invalid (m.setWidth 1)

/-! A well-typed record as numbers. -/

/-- The numeric form of a ZMDIConfig1 record (R74). -/
def ZmdiConfig1.codes (r : ZmdiConfig1) : ZmdiConfig1Codes where
  clockSpeed := r.clockSpeed.code
  commType := r.commType.code
  sleepMode := r.sleepMode.code
  updateRate := r.updateRate.code
  curveShape := r.curveShape.code
  polTco := r.polTco.code
  polTcg := r.polTcg.code
  polSotBridge := r.polSotBridge.code
  polSotOffsetTemp := r.polSotOffsetTemp.code
  polSotGainTemp := r.polSotGainTemp.code
  polSotLinTemp := r.polSotLinTemp.code

/-- The numeric form of a ZMDIConfig2 record (R75). -/
def ZmdiConfig2.codes (r : ZmdiConfig2) : ZmdiConfig2Codes where
  altBusPolarity := r.altBusPolarity.code
  connCheck := flagCode r.connCheck
  shortCheck := flagCode r.shortCheck
  address := r.address.toNat
  addrLock := r.addrLock
  eepromLock := r.eepromLock

/-- The numeric form of a BridgeConfig record (R76). -/
def BridgeConfig.codes (r : BridgeConfig) : BridgeConfigCodes where
  preampOffset := r.preampOffset.toNat
  preampGain := r.preampGain
  polarity := r.polarity.toNat
  longIntegration := flagCode r.longIntegration
  bSink := flagCode r.bSink
  mux := r.mux
  disableNulling := flagCode r.disableNulling

namespace Machine

/-! Range checks. -/

/-- The operand a `FieldRange` error reports out of the out-of-range ones: the only one, or, the spec giving
several no order, the one that `pick` names (DESIGN CHOICE, log 7: the encoders pass the free value
`Config.reportedField` of the whole operation, so that nothing but the operation decides it). -/
def reportOne (pick : Nat) : List Nat → Option Nat
  | [] => none
  | [n] => some n
  | ns => some (ns.getD (pick % ns.length) 0)

/-- Check field codes against the largest value of their fields (D38): the pairs are (code, largest). -/
def outOfRange (pick : Nat) (fields : List (Nat × Nat)) : Option Nat :=
  reportOne pick ((fields.filter fun p => decide (p.2 < p.1)).map Prod.fst)

/-- The fields ENC_CFG1 checks (R96). -/
def config1Fields (r : ZmdiConfig1Codes) : List (Nat × Nat) :=
  [(r.clockSpeed, 1), (r.commType, 1), (r.sleepMode, 1), (r.updateRate, 3), (r.curveShape, 1),
    (r.polTco, 1), (r.polTcg, 1), (r.polSotBridge, 1), (r.polSotOffsetTemp, 1), (r.polSotGainTemp, 1),
    (r.polSotLinTemp, 1)]

/-- The fields ENC_CFG2 checks beside the address (R98, D38). -/
def config2Fields (r : ZmdiConfig2Codes) : List (Nat × Nat) :=
  [(r.altBusPolarity, 1), (r.connCheck, 1), (r.shortCheck, 1)]

/-- The fields ENC_BRIDGE checks beside the preamp offset (R100, D38). -/
def bridgeFields (r : BridgeConfigCodes) : List (Nat × Nat) :=
  [(r.polarity, 1), (r.longIntegration, 1), (r.bSink, 1), (r.disableNulling, 1)]

/-! The gain operand. -/

/-- What a binary32 operand stands for (R78, R106): its exact rational value where it has one. Both zeros
have the value 0, so −0.0 is not below 0 (R108, D21). -/
inductive Binary32 where
  | nan
  | infinite (negative : Bool)
  | finite (q : ℚ)
deriving DecidableEq, Repr

/-- The magnitude of a finite binary32 value with biased exponent `e` and fraction field `f`:
subnormal `f × 2^-149`, normal `(2^23 + f) × 2^(e-150)` (IEEE 754, PRESUMED by R78, log 8). -/
def binary32Magnitude (e f : Nat) : ℚ :=
  if e = 0 then ((f : Nat) : ℚ) / ((2 ^ 149 : Nat) : ℚ)
  else (((2 ^ 23 + f) * 2 ^ e : Nat) : ℚ) / ((2 ^ 150 : Nat) : ℚ)

/-- The value of 32 bits read as binary32 (R78, log 8). -/
def binary32 (g : BitVec 32) : Binary32 :=
  let negative := g.getLsbD 31
  let e := (g.extractLsb' 23 8).toNat
  let f := (g.extractLsb' 0 23).toNat
  if e = 255 then (if f = 0 then .infinite negative else .nan)
  else .finite (if negative then -binary32Magnitude e f else binary32Magnitude e f)

end Machine

end Sys2Proof
end

