-- ==== Sys2Proof/Decode.lean ====
section
/-! DEFINITION. Command bytes and command frames (30_encoding.md R57 to R60), read and written.
Only RDREG, WRREG, STARTCM and STARTNOM have a command frame; the other rows of the opcode table have
no encoding (R63, R79), so a caller requests them by their mnemonic and operands (R35). -/

namespace Sys2Proof

/-- "Command: enumeration of register codes" (R57). -/
inductive Command where
  | read (r : Nat)
  | write (r : Nat)
  | startCm
  | startNom
deriving DecidableEq, Repr

/-- Why bytes are no command frame. -/
inductive DecodeError where
  /-- There is no first byte. -/
  | emptyFrame
  /-- The first byte is no member of the command-code set (R58). -/
  | notACommand (b : Byte)
  /-- A write command without its two data bytes (R60). -/
  | shortFrame (b : Byte)
deriving DecidableEq, Repr

/-- The byte of a command: read code = index, write code = `WR_OFFSET` + index (R9, R57). -/
def Command.byte (c : Config) : Command → Byte
  | .read r => BitVec.ofNat 8 r
  | .write r => BitVec.ofNat 8 (c.wrOffset + r)
  | .startCm => c.cmdStartCm
  | .startNom => c.cmdStartNom

/-- Decoding a command byte (R57); `none` for every byte of R58. -/
def commandOf (c : Config) (b : Byte) : Option Command :=
  if b.toNat < c.nreg then some (.read b.toNat)
  else if c.wrOffset ≤ b.toNat ∧ b.toNat < c.wrOffset + c.nreg then some (.write (b.toNat - c.wrOffset))
  else if b = c.cmdStartCm then some .startCm
  else if b = c.cmdStartNom then some .startNom
  else none

/-- Read one command frame off the front of a byte sequence: CMD1 is one byte (R59), CMD3 three (R60);
the length follows from the command alone (R63). Answers the operation and the bytes after the frame. -/
def decode (c : Config) : List Byte → Except DecodeError (Instr × List Byte)
  | [] => .error .emptyFrame
  | b :: rest =>
    match commandOf c b with
    | none => .error (.notACommand b)
    | some (.read r) => .ok (.rdreg r, rest)
    | some .startCm => .ok (.startcm, rest)
    | some .startNom => .ok (.startnom, rest)
    | some (.write r) =>
      match rest with
      | hi :: lo :: rest' => .ok (.wrreg r (Machine.bigEndian hi lo).toNat, rest')
      | _ => .error (.shortFrame b)

/-- The three bytes a table word stands for: bit 0 of `w` is bit 0 of the first byte, every bit at or
above `nbits` is 0. -/
def tableBytes (nbits w : Nat) : List Byte :=
  [BitVec.ofNat 8 (w % 2 ^ nbits), BitVec.ofNat 8 (w % 2 ^ nbits / 2 ^ 8),
    BitVec.ofNat 8 (w % 2 ^ nbits / 2 ^ 16)]

/-- The operation the decoder reads from a word of the opcode table, with this hardware's codes. -/
def decodeTableWord (nbits w : Nat) : Option Instr :=
  match decode Config.thisHardware (tableBytes nbits w) with
  | .ok (i, _) => some i
  | .error _ => none

/-- Frame CMD1 of a command (R59). -/
def frameCmd1 (c : Config) (cmd : Command) : List Byte := [cmd.byte c]

/-- Frame CMD3: `[WR_OFFSET + r, v[15:8], v[7:0]]` (R60, R43). -/
def frameCmd3 (c : Config) (r : Nat) (v : Word) : List Byte :=
  [Command.byte c (.write r), Machine.hiByte v, Machine.loByte v]

/-- The encoder: the command frame of an operation that has one (R57, R59, R60). -/
def encode (c : Config) : Instr → Option (List Byte)
  | .startcm => some (frameCmd1 c .startCm)
  | .startnom => some (frameCmd1 c .startNom)
  | .rdreg r => some (frameCmd1 c (.read r))
  | .wrreg r v => some (frameCmd3 c r (BitVec.ofNat 16 v))
  | .pwrcyc => none
  | .rdsample => none
  | .sleep _ => none
  | .setaddr _ => none
  | .encCfg1 _ => none
  | .decCfg1 _ => none
  | .encCfg2 _ => none
  | .decCfg2 _ => none
  | .encBridge _ => none
  | .decBridge _ => none
  | .decFactid _ _ _ => none
  | .encGain _ => none
  | .decGain _ => none

/-- Bytes the operation writes on the bus in its one write transaction, 0 if it has none (R63). -/
def bytesWritten : Instr → Nat
  | .startcm => 1
  | .startnom => 1
  | .rdreg _ => 1
  | .wrreg _ _ => 3
  | .pwrcyc => 0
  | .rdsample => 0
  | .sleep _ => 0
  | .setaddr _ => 0
  | .encCfg1 _ => 0
  | .decCfg1 _ => 0
  | .encCfg2 _ => 0
  | .decCfg2 _ => 0
  | .encBridge _ => 0
  | .decBridge _ => 0
  | .decFactid _ _ _ => 0
  | .encGain _ => 0
  | .decGain _ => 0

/-- Bytes the operation reads from the bus in its one read transaction, 0 if it has none (R63). -/
def bytesRead : Instr → Nat
  | .rdreg _ => 3
  | .rdsample => 2
  | .startcm => 0
  | .startnom => 0
  | .wrreg _ _ => 0
  | .pwrcyc => 0
  | .sleep _ => 0
  | .setaddr _ => 0
  | .encCfg1 _ => 0
  | .decCfg1 _ => 0
  | .encCfg2 _ => 0
  | .decCfg2 _ => 0
  | .encBridge _ => 0
  | .decBridge _ => 0
  | .decFactid _ _ _ => 0
  | .encGain _ => 0
  | .decGain _ => 0

end Sys2Proof
end

