-- ==== Sys2Proof/Machine/State.lean ====
section
/-! DEFINITION. The state of the block (10_state.md R22 to R29), the events and responses a run shows
(R34, R35, R111, R112), the requests and replies the outside supplies, and the state after reset. -/

namespace Sys2Proof.Machine

/-- `ps`, the tracked protocol state (R22); its numeric code is `ProtoState.code`. -/
inductive ProtoState where
  | unknown
  | unpowered
  | poweredIdle
  | commandMode
  | normalOperation
deriving DecidableEq, Repr

/-- Result of a `BusWrite` (R15, R31). -/
inductive WriteResult where
  | ok
  | fail
deriving DecidableEq, Repr

/-- Result of a `BusRead` (R15, R31). -/
inductive ReadResult where
  | ok (bytes : List Byte)
  | fail
deriving DecidableEq, Repr

/-- One primitive the block performed (R34). -/
inductive Event where
  /-- `EvWrite(a, bytes, result)` -/
  | write (a : BusAddr) (bytes : List Byte) (result : WriteResult)
  /-- `EvRead(a, n, result)` -/
  | read (a : BusAddr) (n : Nat) (result : ReadResult)
  /-- `EvPower(level)` -/
  | power (level : Level)
  /-- `EvWait(t)`: a wait of at least t µs (R32) -/
  | wait (t : Nat)
deriving DecidableEq, Repr

/-- Status class of a response (R111). -/
inductive Status where
  | ok
  | transportError
  | invalidResponse
  | rangeError
  | modeError
deriving DecidableEq, Repr

/-- Sub-cause of an error with the info it carries (R112). -/
inductive Cause where
  /-- TransportError 1: the bus write failed. -/
  | sendFailed
  /-- TransportError 2: the bus read failed or was short. -/
  | readFailed
  /-- InvalidResponse 1: the received status byte. -/
  | badStatus (st : Byte)
  /-- RangeError 1: the operand g, as its binary32 bits. -/
  | gainUnencodable (g : BitVec 32)
  /-- RangeError 2: the 2-bit mux code. -/
  | invalidMux (m : BitVec 2)
  /-- RangeError 3: the out-of-range operand. -/
  | fieldRange (n : Nat)
  /-- RangeError 4: reserved for the out-of-scope `calibrateBias`; no operation raises it. -/
  | nonPositiveSampleCount (n : Int)
  /-- ModeError 1: the tracked state. -/
  | wrongState (ps : ProtoState)
  /-- ModeError 2: the current bus address. -/
  | addressAlreadyChanged (a : BusAddr)
deriving DecidableEq, Repr

/-- A result value (R79, column "result"). -/
inductive Value where
  | word (v : Word)
  | config1 (rec : ZmdiConfig1)
  | config2 (rec : ZmdiConfig2)
  | bridge (rec : BridgeConfig)
  | factory (id : FactoryId)
  | gain (q : ℚ)
deriving DecidableEq, Repr

/-- A response (R35): the error with its info, if any, and the result value, if any. The triple
`(status, sub, result)` of R35 is `Response.status`, `Response.sub` and `result`. -/
structure Response where
  error : Option Cause
  result : Option Value
deriving DecidableEq, Repr

/-- A request of the caller: an operation with its operands (R35, R79), or a command frame given as
its bytes, decoded by `decode` (log 3). -/
inductive Request where
  | op (i : Instr)
  | frame (bytes : List Byte)
deriving DecidableEq, Repr

/-- The state of the machine. The first six fields are the block's (R22 to R27); `responses` and
`history` are what a run shows (R34, R35); `cfg` is the run's configuration (R10, log 4); the last three
are the model's own inputs (logs 1 and 2). -/
structure State where
  /-- tracked protocol state (R22) -/
  ps : ProtoState
  /-- bus address of every bus primitive (R23) -/
  busAddr : BusAddr
  /-- whether SETADDR has succeeded since reset (R24) -/
  addrChanged : Bool
  /-- level driven on the power line; `none` while none is driven (R25, R29) -/
  pwr : Option Level
  /-- write settle still owed, in µs (R26) -/
  settleRemaining : Nat
  /-- sticky fault bit (R27) -/
  hazardFault : Bool
  /-- responses given so far, oldest first (R35) -/
  responses : List Response
  /-- primitives performed so far, oldest first (R34) -/
  history : List Event
  /-- configuration of the run, changed by no step (R10, R30) -/
  cfg : Config
  /-- requests issued and not yet accepted, next first (log 2) -/
  pending : List Request
  /-- replies of the transport that are fixed in advance, next first (log 1) -/
  answers : List TransportReply
  /-- bus transactions performed, the index of `Config.oracle` (log 1) -/
  busCount : Nat
deriving DecidableEq, Repr

/-- Reasons for a step to stop with a fault. There are none: R117 makes `hazardFault` the block's only
fault, a bit of the state that stops nothing, and every error is a response (R114, R116). -/
inductive Fault where
deriving DecidableEq, Repr

/-- Reasons for a step to be refused. -/
inductive Refusal where
  /-- Raised by a refused arm of `exec` for an instruction without a meaning; safe. No arm is refused. -/
  | notModelled (mnemonic : String)
  /-- Raised by `step` when the next request is a byte frame that `decode` rejects (R58, I22); safe:
  such bytes are no operation. -/
  | notACommandFrame (why : DecodeError)
deriving DecidableEq, Repr

/-- The block right after its construction (R29, R125, R126): nothing performed, nothing answered, and,
of the model's own fields, nothing issued and no reply fixed (logs 1 and 2). -/
def State.reset : State where
  ps := .unknown
  busAddr := Config.thisHardware.initialAddress
  addrChanged := false
  pwr := Config.thisHardware.pwrReset
  settleRemaining := 0
  hazardFault := false
  responses := []
  history := []
  cfg := Config.thisHardware
  pending := []
  answers := []
  busCount := 0

end Sys2Proof.Machine
end

