-- ==== Sys2Proof/Machine/Ops.lean ====
section
/-! DEFINITION. The primitives of 00_scope.md R15 over the state, and ending an operation: with a result,
or by the shared operations `raise` and `raiseWith` (R114: an error saves nothing and goes nowhere). -/

namespace Sys2Proof.Machine

/-- What every meaning answers. -/
abbrev Result := Host.Outcome State Fault Refusal

/-! Numeric codes (R22, R111, R112). -/

/-- The code of a tracked state (R22). -/
def ProtoState.code : ProtoState → Nat
  | .unknown => 0
  | .unpowered => 1
  | .poweredIdle => 2
  | .commandMode => 3
  | .normalOperation => 4

/-- The code of a status class (R111). -/
def Status.code : Status → Nat
  | .ok => 0
  | .transportError => 1
  | .invalidResponse => 2
  | .rangeError => 3
  | .modeError => 4

/-- The status class of a sub-cause (R112). -/
def Cause.status : Cause → Status
  | .sendFailed => .transportError
  | .readFailed => .transportError
  | .badStatus _ => .invalidResponse
  | .gainUnencodable _ => .rangeError
  | .invalidMux _ => .rangeError
  | .fieldRange _ => .rangeError
  | .nonPositiveSampleCount _ => .rangeError
  | .wrongState _ => .modeError
  | .addressAlreadyChanged _ => .modeError

/-- The sub-cause code (R112). -/
def Cause.sub : Cause → Nat
  | .sendFailed => 1
  | .readFailed => 2
  | .badStatus _ => 1
  | .gainUnencodable _ => 1
  | .invalidMux _ => 2
  | .fieldRange _ => 3
  | .nonPositiveSampleCount _ => 4
  | .wrongState _ => 1
  | .addressAlreadyChanged _ => 2

/-- `status` of a response (R35). -/
def Response.status (r : Response) : Status :=
  match r.error with
  | none => .ok
  | some c => c.status

/-- `sub` of a response, 0 when there is no sub-cause (R35). -/
def Response.sub (r : Response) : Nat :=
  match r.error with
  | none => 0
  | some c => c.sub

/-! Named updates of the state. -/

/-- Record one event (R34). -/
def State.emit (s : State) (e : Event) : State := { s with history := s.history ++ [e] }

/-- Give a response to the caller (R35). -/
def State.respond (s : State) (r : Response) : State := { s with responses := s.responses ++ [r] }

def State.setPs (s : State) (p : ProtoState) : State := { s with ps := p }

def State.setPwr (s : State) (l : Level) : State := { s with pwr := some l }

def State.setSettle (s : State) (t : Nat) : State := { s with settleRemaining := t }

def State.setHazard (s : State) : State := { s with hazardFault := true }

/-- The two writes of SETADDR (R93). -/
def State.setAddr (s : State) (a : BusAddr) : State := { s with busAddr := a, addrChanged := true }

/-- Take the head of the pending requests off. -/
def State.dropRequest (s : State) : State := { s with pending := s.pending.drop 1 }

/-- One reply of the transport has been used. -/
def State.dropReply (s : State) : State :=
  { s with answers := s.answers.drop 1, busCount := s.busCount + 1 }

/-! Ending an operation. -/

/-- `return v`: status `OK` (R15). -/
def finish (v : Option Value) (s : State) : Result := .next (s.respond ⟨none, v⟩)

/-- `raise E(sub, info)`: the operation ends, earlier state writes stand (R15, R114). -/
def raise (c : Cause) (s : State) : Result := .next (s.respond ⟨some c, none⟩)

/-- `raiseWith E(sub, info, v)`: the response also carries a value (R15). -/
def raiseWith (c : Cause) (v : Value) (s : State) : Result := .next (s.respond ⟨some c, some v⟩)

/-! The primitives. -/

/-- The reply the transport gives to the k-th bus transaction from here on: fixed in advance by
`answers`, else the free value `Config.oracle` (R33, log 1). -/
def State.replyAt (s : State) (k : Nat) : TransportReply :=
  match s.answers[k]? with
  | some r => r
  | none => Config.oracle (s.busCount + k)

/-- `BusWrite` is `Fail` when the transport reports a nonzero status (R31). -/
def writeResult : TransportReply → WriteResult
  | .failed => .fail
  | .done _ => .ok

/-- `BusRead` of n bytes is `Fail` when the transport fails or delivers another number of bytes (R31, D9). -/
def readResult (n : Nat) : TransportReply → ReadResult
  | .failed => .fail
  | .done bytes => if bytes.length = n then .ok bytes else .fail

/-- `BusWrite(busAddr, bytes)` (R15, R23, R31). -/
def busWrite (bytes : List Byte) (s : State) : WriteResult × State :=
  (writeResult (s.replyAt 0), s.dropReply.emit (.write s.busAddr bytes (writeResult (s.replyAt 0))))

/-- `BusRead(busAddr, n)` (R15, R23, R31). -/
def busRead (n : Nat) (s : State) : ReadResult × State :=
  (readResult n (s.replyAt 0), s.dropReply.emit (.read s.busAddr n (readResult n (s.replyAt 0))))

/-- `SetPower(level); s.pwr <- level` (R15, R86). -/
def setPower (l : Level) (s : State) : State := (s.emit (.power l)).setPwr l

/-- `Wait(t)` (R15, R32). -/
def wait (t : Nat) (s : State) : State := s.emit (.wait t)

end Sys2Proof.Machine
end

