-- ==== Sys2Proof/Machine/ConfigCodec.lean ====
section
/-! DEFINITION. The configuration bitfield codec (41_config_codec.md R96 to R103): pure operations that
perform no primitive and touch no state but the response. -/

namespace Sys2Proof.Machine

/-! ZMDIConfig1 (R64). -/

/-- The register value of a ZMDIConfig1 record whose codes are in range (R96). -/
def encConfig1Word (r : ZmdiConfig1Codes) : Word :=
  0b001 ||| place r.clockSpeed 3 ||| place r.commType 4 ||| place r.sleepMode 5 |||
    place r.updateRate 6 ||| place 0 8 ||| place r.curveShape 9 ||| place r.polTco 10 |||
    place r.polTcg 11 ||| place r.polSotBridge 12 ||| place r.polSotOffsetTemp 13 |||
    place r.polSotGainTemp 14 ||| place r.polSotLinTemp 15

/-- The record of a ZMDIConfig1 register value; bits 2..0 and 8 are not read (R97). -/
def decConfig1Record (v : Word) : ZmdiConfig1 where
  clockSpeed := if bit v 3 then .mhz1 else .mhz4
  commType := if bit v 4 then .altBus else .nativeBus
  sleepMode := if bit v 5 then .onDemand else .continuous
  updateRate := updateRateOf (field v 6 2)
  curveShape := if bit v 9 then .sShaped else .parabolic
  polTco := polarityOf (bit v 10)
  polTcg := polarityOf (bit v 11)
  polSotBridge := polarityOf (bit v 12)
  polSotOffsetTemp := polarityOf (bit v 13)
  polSotGainTemp := polarityOf (bit v 14)
  polSotLinTemp := polarityOf (bit v 15)

/-- `ENC_CFG1 rec` (R96). -/
def execEncCfg1 (rec : ZmdiConfig1Codes) (s : State) : Result :=
  match outOfRange (Config.reportedField (.encCfg1 rec)) (config1Fields rec) with
  | some n => raise (.fieldRange n) s
  | none => finish (some (.word (encConfig1Word rec))) s

/-- `DEC_CFG1 v` (R97). -/
def execDecCfg1 (v : Word) (s : State) : Result := finish (some (.config1 (decConfig1Record v))) s

/-! ZMDIConfig2 (R67). -/

/-- The register value of a ZMDIConfig2 record whose codes are in range (R98). -/
def encConfig2Word (r : ZmdiConfig2Codes) : Word :=
  place r.altBusPolarity 0 ||| place r.connCheck 1 ||| place r.shortCheck 2 ||| place r.address 3 |||
    place r.addrLock.code 10 ||| place r.eepromLock.code 13

/-- The record of a ZMDIConfig2 register value (R99). -/
def decConfig2Record (v : Word) : ZmdiConfig2 where
  altBusPolarity := if bit v 0 then .positive else .negative
  connCheck := bit v 1
  shortCheck := bit v 2
  address := field v 3 7
  addrLock := lockOf (field v 10 3)
  eepromLock := lockOf (field v 13 3)

/-- `ENC_CFG2 rec` (R98): the address check of the rule first, then those of D38. -/
def execEncCfg2 (rec : ZmdiConfig2Codes) (s : State) : Result :=
  if 0x7F < rec.address then raise (.fieldRange rec.address) s
  else
    match outOfRange (Config.reportedField (.encCfg2 rec)) (config2Fields rec) with
    | some n => raise (.fieldRange n) s
    | none => finish (some (.word (encConfig2Word rec))) s

/-- `DEC_CFG2 v` (R99). -/
def execDecCfg2 (v : Word) (s : State) : Result := finish (some (.config2 (decConfig2Record v))) s

/-! BridgeConfig (R69). -/

/-- The register value of a BridgeConfig record whose codes are in range and whose mux is valid (R100);
bits 15..13 are 0. -/
def encBridgeWord (r : BridgeConfigCodes) : Word :=
  place r.preampOffset 0 ||| place r.preampGain.code 4 ||| place r.polarity 7 |||
    place r.longIntegration 8 ||| place r.bSink 9 ||| place r.mux.code 10 ||| place r.disableNulling 12

/-- The record of a BridgeConfig register value; bits 15..13 are not read (R101). -/
def decBridgeRecord (v : Word) : BridgeConfig where
  preampOffset := field v 0 4
  preampGain := preampGainOf (field v 4 3)
  polarity := field v 7 1
  longIntegration := bit v 8
  bSink := bit v 9
  mux := muxOf (field v 10 2)
  disableNulling := bit v 12

/-- `ENC_BRIDGE rec` (R100): the preamp-offset check of the rule first, then those of D38, then the mux
(R115: FieldRange before InvalidMux). -/
def execEncBridge (rec : BridgeConfigCodes) (s : State) : Result :=
  if 15 < rec.preampOffset then raise (.fieldRange rec.preampOffset) s
  else
    match outOfRange (Config.reportedField (.encBridge rec)) (bridgeFields rec) with
    | some n => raise (.fieldRange n) s
    | none =>
      match rec.mux with
      | .invalid c => raiseWith (.invalidMux (c.setWidth 2)) (.word 0x0000) s
      | .fullBridge => finish (some (.word (encBridgeWord rec))) s
      | .halfBridge => finish (some (.word (encBridgeWord rec))) s

/-- `DEC_BRIDGE v` (R101): an invalid mux code is flagged and the record still returned. -/
def execDecBridge (v : Word) (s : State) : Result :=
  if field v 10 2 = 0b00 ∨ field v 10 2 = 0b01 then
    raiseWith (.invalidMux (field v 10 2)) (.bridge (decBridgeRecord v)) s
  else finish (some (.bridge (decBridgeRecord v))) s

end Sys2Proof.Machine
end

