-- ==== Sys2Proof/Machine/FactoryGain.lean ====
section
/-! DEFINITION. The factory-ID decoder and the GainValue codec (42_factory_gain.md R105 to R109), over
exact rationals (R106). -/

namespace Sys2Proof.Machine

/-- The FactoryID of three customer-ID values (R72, R105); all 19 lot bits are kept (D20). -/
def decFactoryId (c0 c1 c2 : Word) : FactoryId where
  lotNumber := (c2.setWidth 19 <<< 3) ||| (c0 >>> 13).setWidth 19
  waferNumber := ((c0 >>> 8) &&& 0x1F).setWidth 5
  waferXCoordinate := (c0 &&& 0x7F).setWidth 7
  waferYCoordinate := c1

/-- `DEC_FACTID c0, c1, c2` (R105). -/
def execDecFactid (c0 c1 c2 : Word) (s : State) : Result :=
  finish (some (.factory (decFactoryId c0 c1 c2))) s

/-- The value of a GainValue register (R73, R107): bit 15 scales by 8. -/
def gainValue (v : Word) : ℚ :=
  let base : ℚ := ((v &&& 0x7FFF).toNat : ℚ) / 8192
  if bit v 15 then base * 8 else base

/-- `DEC_GAIN v` (R107). -/
def execDecGain (v : Word) (s : State) : Result := finish (some (.gain (gainValue v))) s

/-- `floor(x + 1/2)` for x ≥ 0 (R109). -/
def roundHalfAway (x : ℚ) : Nat := (x + 1 / 2).floor.toNat

/-- `pack` of R108: round to 13 fraction bits and saturate at 0x7FFF (D23). -/
def gainMagnitude (m : ℚ) : Nat := min (roundHalfAway (m * 8192)) 0x7FFF

/-- The register value of an encodable gain (R108): from 4 on, the coarse range. -/
def encGainWord (q : ℚ) : Word :=
  if 4 ≤ q then place 1 15 ||| BitVec.ofNat 16 (gainMagnitude (q / 8))
  else BitVec.ofNat 16 (gainMagnitude q)

/-- The exact value of a gain operand that has an encoding: not NaN, not below 0, below 32 (R108, D21). -/
def encodableGain : Binary32 → Option ℚ
  | .nan => none
  | .infinite _ => none
  | .finite q => if q < 0 ∨ 32 ≤ q then none else some q

/-- `ENC_GAIN g` (R108): the sentinel 0x0000 with the error where g has no encoding. -/
def execEncGain (g : BitVec 32) (s : State) : Result :=
  match encodableGain (binary32 g) with
  | none => raiseWith (.gainUnencodable g) (.word 0x0000) s
  | some q => finish (some (.word (encGainWord q))) s

end Sys2Proof.Machine
end

