-- ==== Sys2Proof/Machine/Flags.lean ====
section
/-! DEFINITION. The block has no condition codes (10_state.md R28). Its one status bit is `hazardFault`
(R27), computed here by `hazardCheck`, beside the mode guard that precedes it in every gated operation. -/

namespace Sys2Proof.Machine

/-- `hazardCheck()` (R129): performed before a bus transaction or a power cycle. -/
def hazardCheck (s : State) : State := if s.settleRemaining > 0 then s.setHazard else s

/-- `guard(A)` for a one-element set A, the only sets the rules use (R85): the error it raises, if any. -/
def guard (allowed : ProtoState) (s : State) : Option Cause :=
  if s.cfg.modeGuard = .enforce ∧ s.ps ≠ allowed then some (.wrongState s.ps) else none

end Sys2Proof.Machine
end

