-- ==== Sys2Proof/Machine/Mode.lean ====
section
/-! DEFINITION. Mode transitions: PWRCYC, STARTCM, STARTNOM (40_protocol.md R86 to R88). -/

namespace Sys2Proof.Machine

/-- `PWRCYC` (R86): low hold, high hold, settle cleared. `Unpowered` is entered and left inside. -/
def execPwrcyc (s : State) : Result :=
  let s := hazardCheck s
  let s := (setPower .low s).setPs .unpowered
  let s := wait s.cfg.tPwrLow s
  let s := setPower .high s
  let s := wait s.cfg.tPwrHigh s
  let s := s.setSettle 0
  let s := s.setPs .poweredIdle
  finish none s

/-- `STARTCM` (R87): send `CMD_START_CM`, settle, enter command mode if the power cycle came directly
before. -/
def execStartcm (s : State) : Result :=
  match guard .poweredIdle s with
  | some c => raise c s
  | none =>
    let s := hazardCheck s
    let prior := s.ps
    match busWrite (frameCmd1 s.cfg .startCm) s with
    | (.fail, s) => raise .sendFailed (s.setPs .unknown)
    | (.ok, s) =>
      let s := wait s.cfg.tCmSettle s
      finish none (s.setPs (if prior = .poweredIdle then .commandMode else .unknown))

/-- `STARTNOM` (R88): send `CMD_START_NOM`; no settle. -/
def execStartnom (s : State) : Result :=
  match guard .commandMode s with
  | some c => raise c s
  | none =>
    let s := hazardCheck s
    let prior := s.ps
    match busWrite (frameCmd1 s.cfg .startNom) s with
    | (.fail, s) => raise .sendFailed (s.setPs .unknown)
    | (.ok, s) => finish none (s.setPs (if prior = .commandMode then .normalOperation else .unknown))

end Sys2Proof.Machine
end

