-- ==== Sys2Proof/Machine/Register.lean ====
section
/-! DEFINITION. Register and sample access: RDREG, WRREG, RDSAMPLE (40_protocol.md R89 to R91). -/

namespace Sys2Proof.Machine

/-- `RDREG r` (R89): the 1-byte command, the delay, the 3-byte reply with its status byte checked.
A read that is not `Ok` of three bytes is `Fail` (R31), the last arm. -/
def execRdreg (r : Nat) (s : State) : Result :=
  if s.cfg.nreg ≤ r then raise (.fieldRange r) s
  else
    match guard .commandMode s with
    | some c => raise c s
    | none =>
      let s := hazardCheck s
      match busWrite (frameCmd1 s.cfg (.read r)) s with
      | (.fail, s) => raise .sendFailed s
      | (.ok, s) =>
        let s := wait s.cfg.tRdDelay s
        match busRead 3 s with
        | (.ok [st, d1, d0], s) =>
          if st = s.cfg.statusOk then finish (some (.word (bigEndian d1 d0))) s
          else raise (.badStatus st) s
        | (_, s) => raise .readFailed s

/-- `WRREG r, v` (R90): the 3-byte frame; the settle is owed whether or not the write succeeded. -/
def execWrreg (r v : Nat) (s : State) : Result :=
  if s.cfg.nreg ≤ r then raise (.fieldRange r) s
  else if 0xFFFF < v then raise (.fieldRange v) s
  else
    match guard .commandMode s with
    | some c => raise c s
    | none =>
      let s := hazardCheck s
      match busWrite (frameCmd3 s.cfg r (BitVec.ofNat 16 v)) s with
      | (.fail, s) => raise .sendFailed (s.setSettle s.cfg.tWrSettle)
      | (.ok, s) => finish none (s.setSettle s.cfg.tWrSettle)

/-- `RDSAMPLE` (R91): a 2-byte read without a command byte; the status bits are discarded.
A read that is not `Ok` of two bytes is `Fail` (R31), the last arm. -/
def execRdsample (s : State) : Result :=
  match guard .normalOperation s with
  | some c => raise c s
  | none =>
    let s := hazardCheck s
    match busRead 2 s with
    | (.ok [b0, b1], s) => finish (some (.word (sampleValue b0 b1))) s
    | (_, s) => raise .readFailed s

end Sys2Proof.Machine
end

