-- ==== Sys2Proof/Machine/TimeAddress.lean ====
section
/-! DEFINITION. Time and address: SLEEP, SETADDR (40_protocol.md R92, R93). -/

namespace Sys2Proof.Machine

/-- `SLEEP t` (R92): pays write settle; in `PoweredIdle` a positive sleep closes the command window
(R132). -/
def execSleep (t : Nat) (s : State) : Result :=
  let s := wait t s
  let s := s.setSettle (s.settleRemaining - t)
  if s.ps = .poweredIdle ∧ 0 < t then finish none (s.setPs .unknown) else finish none s

/-- `SETADDR a` (R93): allowed once since reset under `enforce`. -/
def execSetaddr (a : Nat) (s : State) : Result :=
  if 0x7F < a then raise (.fieldRange a) s
  else if s.cfg.modeGuard = .enforce ∧ s.addrChanged = true then
    raise (.addressAlreadyChanged s.busAddr) s
  else finish none (s.setAddr (BitVec.ofNat 7 a))

end Sys2Proof.Machine
end

