-- ==== Sys2Proof/Machine/Dispatch.lean ====
section
/-! DEFINITION. The one dispatch from an operation to its meaning (30_encoding.md R79). -/

namespace Sys2Proof.Machine

def exec (i : Instr) (s : State) : Host.Outcome State Fault Refusal :=
  match i with
  | .pwrcyc => Sys2Proof.Machine.execPwrcyc s
  | .startcm => Sys2Proof.Machine.execStartcm s
  | .startnom => Sys2Proof.Machine.execStartnom s
  | .rdreg r => Sys2Proof.Machine.execRdreg r s
  | .wrreg r v => Sys2Proof.Machine.execWrreg r v s
  | .rdsample => Sys2Proof.Machine.execRdsample s
  | .sleep t => Sys2Proof.Machine.execSleep t s
  | .setaddr a => Sys2Proof.Machine.execSetaddr a s
  | .encCfg1 rec => Sys2Proof.Machine.execEncCfg1 rec s
  | .decCfg1 v => Sys2Proof.Machine.execDecCfg1 v s
  | .encCfg2 rec => Sys2Proof.Machine.execEncCfg2 rec s
  | .decCfg2 v => Sys2Proof.Machine.execDecCfg2 v s
  | .encBridge rec => Sys2Proof.Machine.execEncBridge rec s
  | .decBridge v => Sys2Proof.Machine.execDecBridge v s
  | .decFactid c0 c1 c2 => Sys2Proof.Machine.execDecFactid c0 c1 c2 s
  | .encGain g => Sys2Proof.Machine.execEncGain g s
  | .decGain v => Sys2Proof.Machine.execDecGain v s

end Sys2Proof.Machine
end

