-- ==== Sys2Proof/Machine/Fetch.lean ====
section
/-! DEFINITION. Accepting the next request (10_state.md R35, R36; log 2). The block fetches nothing from a
memory (R21, R55); what stands in for a fetch is reading the request the caller has issued. -/

namespace Sys2Proof.Machine

/-- The operation a request asks for: itself, or the one its command frame decodes to (log 3). -/
def requestedOp (c : Config) : Request → Except DecodeError Instr
  | .op i => .ok i
  | .frame bytes =>
    match decode c bytes with
    | .ok (i, _) => .ok i
    | .error e => .error e

end Sys2Proof.Machine
end

