-- ==== Sys2Proof/Machine/Step.lean ====
section
/-! DEFINITION. One step of the machine: accept the next pending request, perform it whole and answer it
(10_state.md R36). -/

namespace Sys2Proof.Machine

/-- With no request pending the block performs nothing (R36, R94, log 2); otherwise it performs the next
one, which is then no longer pending. -/
def step (s : State) : Host.Outcome State Fault Refusal :=
  match s.pending with
  | [] => .next s
  | q :: _ =>
    match requestedOp s.cfg q with
    | .error e => .refused (.notACommandFrame e)
    | .ok i => exec i s.dropRequest

/-- Issue the command frame of a table word as the next request (log 3). -/
def State.withFetchWord (s : State) (nbits w : Nat) : State :=
  { s with pending := .frame (tableBytes nbits w) :: s.pending }

end Sys2Proof.Machine
end

