-- ==== Sys2Proof/Machine/Pseudo.lean ====
section
/-! DEFINITION. The pseudo-operations (30_encoding.md R80): sequences of operations, each with its own
response, not atomic. -/

namespace Sys2Proof.Machine

/-- What the caller does at an operation whose status is not `OK` (R80, R116). -/
inductive OnError where
  | stop
  | goOn
deriving DecidableEq, Repr

/-- Perform `i`, then go on with the result value of its response; at a status other than `OK` the
sequence ends there unless the caller goes on (R80). -/
def thenDo (p : OnError) (i : Instr) (s : State) (k : Option Value → State → Result) : Result :=
  match exec i s with
  | .next s' =>
    match s'.responses.getLast? with
    | some r => if r.error = none ∨ p = .goOn then k r.result s' else .next s'
    | none => .next s'
  | .fault f => .fault f
  | .refused r => .refused r

/-- `ENTERCM`: `PWRCYC; STARTCM`. -/
def enterCm (p : OnError) (s : State) : Result :=
  thenDo p .pwrcyc s fun _ s => exec .startcm s

/-- `RDFACTID`: read the three customer-ID registers and decode them (R80, R104). Going on after a read
without a result ends the sequence, since there is nothing to decode. -/
def rdFactId (p : OnError) (s : State) : Result :=
  thenDo p (.rdreg s.cfg.regCustId0) s fun v0 s =>
    thenDo p (.rdreg (s.cfg.regCustId0 + 1)) s fun v1 s =>
      thenDo p (.rdreg (s.cfg.regCustId0 + 2)) s fun v2 s =>
        match v0, v1, v2 with
        | some (.word c0), some (.word c1), some (.word c2) => exec (.decFactid c0 c1 c2) s
        | _, _, _ => .next s

/-- `RMW_CFG1 f` (R80). -/
def rmwConfig1 (p : OnError) (f : ZmdiConfig1 → ZmdiConfig1) (s : State) : Result :=
  thenDo p (.rdreg s.cfg.regConfig1) s fun v s =>
    match v with
    | some (.word v) =>
      thenDo p (.decCfg1 v) s fun rec s =>
        match rec with
        | some (.config1 rec) =>
          thenDo p (.encCfg1 (f rec).codes) s fun w s =>
            match w with
            | some (.word w) => exec (.wrreg s.cfg.regConfig1 w.toNat) s
            | _ => .next s
        | _ => .next s
    | _ => .next s

/-- `RMW_CFG2 f` (R80). -/
def rmwConfig2 (p : OnError) (f : ZmdiConfig2 → ZmdiConfig2) (s : State) : Result :=
  thenDo p (.rdreg s.cfg.regConfig2) s fun v s =>
    match v with
    | some (.word v) =>
      thenDo p (.decCfg2 v) s fun rec s =>
        match rec with
        | some (.config2 rec) =>
          thenDo p (.encCfg2 (f rec).codes) s fun w s =>
            match w with
            | some (.word w) => exec (.wrreg s.cfg.regConfig2 w.toNat) s
            | _ => .next s
        | _ => .next s
    | _ => .next s

/-- `RMW_BRIDGE f` (R80). A flagged decode still carries its record, so a caller that goes on can repair
an invalid mux (R101). -/
def rmwBridge (p : OnError) (f : BridgeConfig → BridgeConfig) (s : State) : Result :=
  thenDo p (.rdreg s.cfg.regBridge) s fun v s =>
    match v with
    | some (.word v) =>
      thenDo p (.decBridge v) s fun rec s =>
        match rec with
        | some (.bridge rec) =>
          thenDo p (.encBridge (f rec).codes) s fun w s =>
            match w with
            | some (.word w) => exec (.wrreg s.cfg.regBridge w.toNat) s
            | _ => .next s
        | _ => .next s
    | _ => .next s

end Sys2Proof.Machine
end

