-- ==== Sys2Proof/Machine/Observe.lean ====
section
/-! DEFINITION. What a run shows (10_state.md R34, R35), in the terms claims use: the triple of a response,
and what an event is about. -/

namespace Sys2Proof.Machine

/-- The triple `(status, sub, result)` of R35, status and sub as their numeric codes (R111, R112). -/
def Response.triple (r : Response) : Nat × Nat × Option Value := (r.status.code, r.sub, r.result)

/-- The bus address an event uses; none for power and wait events (R23, R34). -/
def Event.busAddress : Event → Option BusAddr
  | .write a _ _ => some a
  | .read a _ _ => some a
  | .power _ => none
  | .wait _ => none

/-- Whether an event is a bus transaction (R31). -/
def Event.isBus (e : Event) : Bool := e.busAddress.isSome

/-- Whether an event is what the write settle protects from: a bus transaction, or a change of the power
line (R27, R129). -/
def Event.needsSettle : Event → Bool
  | .write _ _ _ => true
  | .read _ _ _ => true
  | .power _ => true
  | .wait _ => false

/-- The bytes an event writes; none for the other events. -/
def Event.written : Event → Option (List Byte)
  | .write _ bytes _ => some bytes
  | .read _ _ _ => none
  | .power _ => none
  | .wait _ => none

/-- The number of bytes an event asks to read; none for the other events. -/
def Event.requested : Event → Option Nat
  | .read _ n _ => some n
  | .write _ _ _ => none
  | .power _ => none
  | .wait _ => none

/-- The number of bus transactions among events (R31). -/
def busTransactions (es : List Event) : Nat := (es.filter Event.isBus).length

/-- The least total time the wait events of a list take (R32, R34), in µs. -/
def waited : List Event → Nat
  | [] => 0
  | .wait t :: es => t + waited es
  | .write _ _ _ :: es => waited es
  | .read _ _ _ :: es => waited es
  | .power _ :: es => waited es

/-- Minimum duration of an operation that runs to its end, less its bus transfers, whose time the source
does not give (R135, D36). -/
def minDuration (c : Config) : Instr → Nat
  | .pwrcyc => c.tPwrLow + c.tPwrHigh
  | .startcm => c.tCmSettle
  | .startnom => 0
  | .rdreg _ => c.tRdDelay
  | .wrreg _ _ => 0
  | .rdsample => 0
  | .sleep t => t
  | .setaddr _ => 0
  | .encCfg1 _ => 0
  | .decCfg1 _ => 0
  | .encCfg2 _ => 0
  | .decCfg2 _ => 0
  | .encBridge _ => 0
  | .decBridge _ => 0
  | .decFactid _ _ _ => 0
  | .encGain _ => 0
  | .decGain _ => 0

/-- The codec operations: files 41 and 42 of the spec (R103). -/
def isCodec : Instr → Bool
  | .encCfg1 _ => true
  | .decCfg1 _ => true
  | .encCfg2 _ => true
  | .decCfg2 _ => true
  | .encBridge _ => true
  | .decBridge _ => true
  | .decFactid _ _ _ => true
  | .encGain _ => true
  | .decGain _ => true
  | .pwrcyc => false
  | .startcm => false
  | .startnom => false
  | .rdreg _ => false
  | .wrreg _ _ => false
  | .rdsample => false
  | .sleep _ => false
  | .setaddr _ => false

end Sys2Proof.Machine
end

