-- ==== Sys2Proof/Safety.lean ====
section
/-! DEFINITION. What claims take as a premise or keep as an invariant. -/

namespace Sys2Proof.Machine

/-- A run whose final state is `s` has a device meaning (R27, R129): no bus transaction and no power cycle
fell into a write settle. -/
def State.meaningful (s : State) : Bool := !s.hazardFault

/-- The tracked state is `Unpowered` at no operation's end (R22); a tracked state that follows a power cycle
goes with a line driven high (R25, R86); no more settle is owed than one write's (R26); an address never
changed is the initial one (R23, R24, R29). -/
structure State.Consistent (s : State) : Prop where
  notUnpowered : s.ps ≠ .unpowered
  poweredHigh : s.ps = .poweredIdle ∨ s.ps = .commandMode ∨ s.ps = .normalOperation → s.pwr = some .high
  settleBound : s.settleRemaining ≤ s.cfg.tWrSettle
  addressKept : s.addrChanged = false → s.busAddr = s.cfg.initialAddress
  busCounted : s.busCount = busTransactions s.history

/-- States that some number of steps leads to from `s`. -/
inductive Reachable (s : State) : State → Prop where
  | start : Reachable s s
  | step {t u : State} : Reachable s t → Sys2Proof.Machine.step t = .next u → Reachable s u

end Sys2Proof.Machine
end

