-- ==== Sys2Proof/WellFormed.lean ====
section
/-! DEFINITION. When the operands of an operation have the types of R79 and of the records R74 to R76.
An ill-formed operation is still performed: it answers RangeError/FieldRange (R89, R90, R93, D38). -/

namespace Sys2Proof

/-- Every field code in the range R74 gives it. -/
def ZmdiConfig1Codes.wellFormed (r : ZmdiConfig1Codes) : Bool :=
  decide (r.clockSpeed ≤ 1) && decide (r.commType ≤ 1) && decide (r.sleepMode ≤ 1) &&
    decide (r.updateRate ≤ 3) && decide (r.curveShape ≤ 1) && decide (r.polTco ≤ 1) &&
    decide (r.polTcg ≤ 1) && decide (r.polSotBridge ≤ 1) && decide (r.polSotOffsetTemp ≤ 1) &&
    decide (r.polSotGainTemp ≤ 1) && decide (r.polSotLinTemp ≤ 1)

/-- Every field code in the range R75 gives it. -/
def ZmdiConfig2Codes.wellFormed (r : ZmdiConfig2Codes) : Bool :=
  decide (r.altBusPolarity ≤ 1) && decide (r.connCheck ≤ 1) && decide (r.shortCheck ≤ 1) &&
    decide (r.address ≤ 0x7F)

/-- Every field code in the range R76 gives it; the mux may be `invalid` (R76). -/
def BridgeConfigCodes.wellFormed (r : BridgeConfigCodes) : Bool :=
  decide (r.preampOffset ≤ 15) && decide (r.polarity ≤ 1) && decide (r.longIntegration ≤ 1) &&
    decide (r.bSink ≤ 1) && decide (r.disableNulling ≤ 1)

/-- The operand types of R79, for a block of configuration `c` (`NREG` register indices). -/
def Instr.wellFormed (c : Config) : Instr → Bool
  | .pwrcyc => true
  | .startcm => true
  | .startnom => true
  | .rdreg r => decide (r < c.nreg)
  | .wrreg r v => decide (r < c.nreg) && decide (v ≤ 0xFFFF)
  | .rdsample => true
  | .sleep _ => true
  | .setaddr a => decide (a ≤ 0x7F)
  | .encCfg1 rec => rec.wellFormed
  | .decCfg1 _ => true
  | .encCfg2 rec => rec.wellFormed
  | .decCfg2 _ => true
  | .encBridge rec => rec.wellFormed
  | .decBridge _ => true
  | .decFactid _ _ _ => true
  | .encGain _ => true
  | .decGain _ => true

end Sys2Proof
end

