-- ==== Sys2Proof/Certificates/Slice0/Obligations.lean ====
section
/-! DEFINITION. The statements for the provers, from the numbered rules of spec/. OBLIGATIONS.json lists
them. `s.replyAt k` is the transport's reply to the k-th bus transaction from `s` on (R33). -/

open Sys2Proof Sys2Proof.Machine

/-! ## One statement per operation: R86 to R101, R105, R107, R108 -/

/-- R86. PWRCYC completes in every state. -/
def Obligations.PwrcycHoldsLowThenHighAndClearsSettle : Prop :=
  ∀ s : State, exec .pwrcyc s = .next { s with
    ps := .poweredIdle
    pwr := some .high
    settleRemaining := 0
    hazardFault := s.hazardFault || decide (0 < s.settleRemaining)
    history := s.history ++
      [.power .low, .wait s.cfg.tPwrLow, .power .high, .wait s.cfg.tPwrHigh]
    responses := s.responses ++ [⟨none, none⟩] }

/-- R87. Clauses: refused by the guard; the send fails; the send succeeds (the completion). -/
def Obligations.StartcmSendsTheByteAndEntersCommandMode : Prop :=
  (∀ s : State, s.cfg.modeGuard = .enforce → s.ps ≠ .poweredIdle →
    exec .startcm s = .next { s with responses := s.responses ++ [⟨some (.wrongState s.ps), none⟩] }) ∧
  (∀ s : State, (s.cfg.modeGuard = .passthrough ∨ s.ps = .poweredIdle) → s.replyAt 0 = .failed →
    exec .startcm s = .next { s with
      ps := .unknown
      hazardFault := s.hazardFault || decide (0 < s.settleRemaining)
      answers := s.answers.drop 1
      busCount := s.busCount + 1
      history := s.history ++ [.write s.busAddr [s.cfg.cmdStartCm] .fail]
      responses := s.responses ++ [⟨some .sendFailed, none⟩] }) ∧
  (∀ (s : State) (bytes : List Byte), (s.cfg.modeGuard = .passthrough ∨ s.ps = .poweredIdle) →
    s.replyAt 0 = .done bytes →
    exec .startcm s = .next { s with
      ps := if s.ps = .poweredIdle then .commandMode else .unknown
      hazardFault := s.hazardFault || decide (0 < s.settleRemaining)
      answers := s.answers.drop 1
      busCount := s.busCount + 1
      history := s.history ++ [.write s.busAddr [s.cfg.cmdStartCm] .ok, .wait s.cfg.tCmSettle]
      responses := s.responses ++ [⟨none, none⟩] })

/-- R88. Clauses: refused by the guard; the send fails; the send succeeds (the completion). -/
def Obligations.StartnomSendsTheByteAndEntersNormalOperation : Prop :=
  (∀ s : State, s.cfg.modeGuard = .enforce → s.ps ≠ .commandMode →
    exec .startnom s = .next { s with responses := s.responses ++ [⟨some (.wrongState s.ps), none⟩] }) ∧
  (∀ s : State, (s.cfg.modeGuard = .passthrough ∨ s.ps = .commandMode) → s.replyAt 0 = .failed →
    exec .startnom s = .next { s with
      ps := .unknown
      hazardFault := s.hazardFault || decide (0 < s.settleRemaining)
      answers := s.answers.drop 1
      busCount := s.busCount + 1
      history := s.history ++ [.write s.busAddr [s.cfg.cmdStartNom] .fail]
      responses := s.responses ++ [⟨some .sendFailed, none⟩] }) ∧
  (∀ (s : State) (bytes : List Byte), (s.cfg.modeGuard = .passthrough ∨ s.ps = .commandMode) →
    s.replyAt 0 = .done bytes →
    exec .startnom s = .next { s with
      ps := if s.ps = .commandMode then .normalOperation else .unknown
      hazardFault := s.hazardFault || decide (0 < s.settleRemaining)
      answers := s.answers.drop 1
      busCount := s.busCount + 1
      history := s.history ++ [.write s.busAddr [s.cfg.cmdStartNom] .ok]
      responses := s.responses ++ [⟨none, none⟩] })

/-- R89. Clauses: index out of range; refused by the guard; the command write fails; the reply read fails
or has another length than 3; a wrong status byte; success (the completion). -/
def Obligations.RdregReadsAndValidatesTheReply : Prop :=
  (∀ (s : State) (r : Nat), s.cfg.nreg ≤ r →
    exec (.rdreg r) s = .next { s with responses := s.responses ++ [⟨some (.fieldRange r), none⟩] }) ∧
  (∀ (s : State) (r : Nat), r < s.cfg.nreg → s.cfg.modeGuard = .enforce → s.ps ≠ .commandMode →
    exec (.rdreg r) s =
      .next { s with responses := s.responses ++ [⟨some (.wrongState s.ps), none⟩] }) ∧
  (∀ (s : State) (r : Nat), r < s.cfg.nreg →
    (s.cfg.modeGuard = .passthrough ∨ s.ps = .commandMode) → s.replyAt 0 = .failed →
    exec (.rdreg r) s = .next { s with
      hazardFault := s.hazardFault || decide (0 < s.settleRemaining)
      answers := s.answers.drop 1
      busCount := s.busCount + 1
      history := s.history ++ [.write s.busAddr [BitVec.ofNat 8 r] .fail]
      responses := s.responses ++ [⟨some .sendFailed, none⟩] }) ∧
  (∀ (s : State) (r : Nat) (b0 : List Byte), r < s.cfg.nreg →
    (s.cfg.modeGuard = .passthrough ∨ s.ps = .commandMode) → s.replyAt 0 = .done b0 →
    (s.replyAt 1 = .failed ∨ ∃ bytes : List Byte, s.replyAt 1 = .done bytes ∧ bytes.length ≠ 3) →
    exec (.rdreg r) s = .next { s with
      hazardFault := s.hazardFault || decide (0 < s.settleRemaining)
      answers := s.answers.drop 2
      busCount := s.busCount + 2
      history := s.history ++ [.write s.busAddr [BitVec.ofNat 8 r] .ok, .wait s.cfg.tRdDelay,
        .read s.busAddr 3 .fail]
      responses := s.responses ++ [⟨some .readFailed, none⟩] }) ∧
  (∀ (s : State) (r : Nat) (b0 : List Byte) (st d1 d0 : Byte), r < s.cfg.nreg →
    (s.cfg.modeGuard = .passthrough ∨ s.ps = .commandMode) → s.replyAt 0 = .done b0 →
    s.replyAt 1 = .done [st, d1, d0] → st ≠ s.cfg.statusOk →
    exec (.rdreg r) s = .next { s with
      hazardFault := s.hazardFault || decide (0 < s.settleRemaining)
      answers := s.answers.drop 2
      busCount := s.busCount + 2
      history := s.history ++ [.write s.busAddr [BitVec.ofNat 8 r] .ok, .wait s.cfg.tRdDelay,
        .read s.busAddr 3 (.ok [st, d1, d0])]
      responses := s.responses ++ [⟨some (.badStatus st), none⟩] }) ∧
  (∀ (s : State) (r : Nat) (b0 : List Byte) (d1 d0 : Byte), r < s.cfg.nreg →
    (s.cfg.modeGuard = .passthrough ∨ s.ps = .commandMode) → s.replyAt 0 = .done b0 →
    s.replyAt 1 = .done [s.cfg.statusOk, d1, d0] →
    exec (.rdreg r) s = .next { s with
      hazardFault := s.hazardFault || decide (0 < s.settleRemaining)
      answers := s.answers.drop 2
      busCount := s.busCount + 2
      history := s.history ++ [.write s.busAddr [BitVec.ofNat 8 r] .ok, .wait s.cfg.tRdDelay,
        .read s.busAddr 3 (.ok [s.cfg.statusOk, d1, d0])]
      responses := s.responses ++
        [⟨none, some (.word (BitVec.ofNat 16 (d1.toNat * 256 + d0.toNat)))⟩] })

/-- R90. Clauses: index out of range; value out of range; refused by the guard; the write fails; the write
succeeds (the completion). The settle is owed in both of the last two. -/
def Obligations.WrregSendsTheFrameAndOwesTheSettle : Prop :=
  (∀ (s : State) (r v : Nat), s.cfg.nreg ≤ r →
    exec (.wrreg r v) s = .next { s with responses := s.responses ++ [⟨some (.fieldRange r), none⟩] }) ∧
  (∀ (s : State) (r v : Nat), r < s.cfg.nreg → 0xFFFF < v →
    exec (.wrreg r v) s = .next { s with responses := s.responses ++ [⟨some (.fieldRange v), none⟩] }) ∧
  (∀ (s : State) (r v : Nat), r < s.cfg.nreg → v ≤ 0xFFFF → s.cfg.modeGuard = .enforce →
    s.ps ≠ .commandMode →
    exec (.wrreg r v) s =
      .next { s with responses := s.responses ++ [⟨some (.wrongState s.ps), none⟩] }) ∧
  (∀ (s : State) (r v : Nat), r < s.cfg.nreg → v ≤ 0xFFFF →
    (s.cfg.modeGuard = .passthrough ∨ s.ps = .commandMode) → s.replyAt 0 = .failed →
    exec (.wrreg r v) s = .next { s with
      settleRemaining := s.cfg.tWrSettle
      hazardFault := s.hazardFault || decide (0 < s.settleRemaining)
      answers := s.answers.drop 1
      busCount := s.busCount + 1
      history := s.history ++ [.write s.busAddr
        [BitVec.ofNat 8 (s.cfg.wrOffset + r), BitVec.ofNat 8 (v / 256), BitVec.ofNat 8 v] .fail]
      responses := s.responses ++ [⟨some .sendFailed, none⟩] }) ∧
  (∀ (s : State) (r v : Nat) (bytes : List Byte), r < s.cfg.nreg → v ≤ 0xFFFF →
    (s.cfg.modeGuard = .passthrough ∨ s.ps = .commandMode) → s.replyAt 0 = .done bytes →
    exec (.wrreg r v) s = .next { s with
      settleRemaining := s.cfg.tWrSettle
      hazardFault := s.hazardFault || decide (0 < s.settleRemaining)
      answers := s.answers.drop 1
      busCount := s.busCount + 1
      history := s.history ++ [.write s.busAddr
        [BitVec.ofNat 8 (s.cfg.wrOffset + r), BitVec.ofNat 8 (v / 256), BitVec.ofNat 8 v] .ok]
      responses := s.responses ++ [⟨none, none⟩] })

/-- R91. Clauses: refused by the guard; the read fails or has another length than 2; success (the
completion), with the two status bits of byte 0 discarded. -/
def Obligations.RdsampleReadsFourteenBits : Prop :=
  (∀ s : State, s.cfg.modeGuard = .enforce → s.ps ≠ .normalOperation →
    exec .rdsample s = .next { s with responses := s.responses ++ [⟨some (.wrongState s.ps), none⟩] }) ∧
  (∀ s : State, (s.cfg.modeGuard = .passthrough ∨ s.ps = .normalOperation) →
    (s.replyAt 0 = .failed ∨ ∃ bytes : List Byte, s.replyAt 0 = .done bytes ∧ bytes.length ≠ 2) →
    exec .rdsample s = .next { s with
      hazardFault := s.hazardFault || decide (0 < s.settleRemaining)
      answers := s.answers.drop 1
      busCount := s.busCount + 1
      history := s.history ++ [.read s.busAddr 2 .fail]
      responses := s.responses ++ [⟨some .readFailed, none⟩] }) ∧
  (∀ (s : State) (b0 b1 : Byte), (s.cfg.modeGuard = .passthrough ∨ s.ps = .normalOperation) →
    s.replyAt 0 = .done [b0, b1] →
    exec .rdsample s = .next { s with
      hazardFault := s.hazardFault || decide (0 < s.settleRemaining)
      answers := s.answers.drop 1
      busCount := s.busCount + 1
      history := s.history ++ [.read s.busAddr 2 (.ok [b0, b1])]
      responses := s.responses ++
        [⟨none, some (.word (BitVec.ofNat 16 (b0.toNat % 64 * 256 + b1.toNat)))⟩] })

/-- R92. SLEEP completes in every state. -/
def Obligations.SleepPaysTheSettleAndClosesTheCommandWindow : Prop :=
  ∀ (s : State) (t : Nat), exec (.sleep t) s = .next { s with
    ps := if s.ps = .poweredIdle ∧ 0 < t then .unknown else s.ps
    settleRemaining := s.settleRemaining - t
    history := s.history ++ [.wait t]
    responses := s.responses ++ [⟨none, none⟩] }

/-- R93. Clauses: out of range; a second change under `enforce`; success (the completion). -/
def Obligations.SetaddrChangesTheAddressOnce : Prop :=
  (∀ (s : State) (a : Nat), 0x7F < a →
    exec (.setaddr a) s = .next { s with responses := s.responses ++ [⟨some (.fieldRange a), none⟩] }) ∧
  (∀ (s : State) (a : Nat), a ≤ 0x7F → s.cfg.modeGuard = .enforce → s.addrChanged = true →
    exec (.setaddr a) s = .next { s with
      responses := s.responses ++ [⟨some (.addressAlreadyChanged s.busAddr), none⟩] }) ∧
  (∀ (s : State) (a : Nat), a ≤ 0x7F → (s.cfg.modeGuard = .passthrough ∨ s.addrChanged = false) →
    exec (.setaddr a) s = .next { s with
      busAddr := BitVec.ofNat 7 a
      addrChanged := true
      responses := s.responses ++ [⟨none, none⟩] })

/-- R96. Clauses: every code in its range (the completion); some code out of its range, and then the error
reports an out-of-range code (which one of several is open: log 7). -/
def Obligations.EncCfg1PacksTheFields : Prop :=
  (∀ (s : State) (r : ZmdiConfig1Codes), r.wellFormed = true →
    exec (.encCfg1 r) s = .next { s with responses := s.responses ++ [⟨none, some (.word
      (BitVec.ofNat 16 (0b001 ||| r.clockSpeed <<< 3 ||| r.commType <<< 4 ||| r.sleepMode <<< 5 |||
        r.updateRate <<< 6 ||| r.curveShape <<< 9 ||| r.polTco <<< 10 ||| r.polTcg <<< 11 |||
        r.polSotBridge <<< 12 ||| r.polSotOffsetTemp <<< 13 ||| r.polSotGainTemp <<< 14 |||
        r.polSotLinTemp <<< 15)))⟩] }) ∧
  (∀ (s : State) (r : ZmdiConfig1Codes), r.wellFormed = false →
    ∃ p ∈ config1Fields r, p.2 < p.1 ∧
      exec (.encCfg1 r) s =
        .next { s with responses := s.responses ++ [⟨some (.fieldRange p.1), none⟩] })

/-- R97. DEC_CFG1 completes for every value; bits 2..0 and 8 decide nothing. -/
def Obligations.DecCfg1ReadsTheFields : Prop :=
  ∀ (s : State) (v : Word), ∃ rec : ZmdiConfig1,
    exec (.decCfg1 v) s =
      .next { s with responses := s.responses ++ [⟨none, some (.config1 rec)⟩] } ∧
    (rec.clockSpeed = if v.getLsbD 3 then .mhz1 else .mhz4) ∧
    (rec.commType = if v.getLsbD 4 then .altBus else .nativeBus) ∧
    (rec.sleepMode = if v.getLsbD 5 then .onDemand else .continuous) ∧
    [UpdateRate.fastest, .faster, .slower, .slowest][v.toNat / 2 ^ 6 % 4]? = some rec.updateRate ∧
    (rec.curveShape = if v.getLsbD 9 then .sShaped else .parabolic) ∧
    (rec.polTco = if v.getLsbD 10 then .negative else .positive) ∧
    (rec.polTcg = if v.getLsbD 11 then .negative else .positive) ∧
    (rec.polSotBridge = if v.getLsbD 12 then .negative else .positive) ∧
    (rec.polSotOffsetTemp = if v.getLsbD 13 then .negative else .positive) ∧
    (rec.polSotGainTemp = if v.getLsbD 14 then .negative else .positive) ∧
    (rec.polSotLinTemp = if v.getLsbD 15 then .negative else .positive)

/-- R98 with D38. Clauses: address out of range; another code out of range; all in range (the
completion). That the address is reported before every other out-of-range code is the model's reading
(log 7): the spec orders none of them. -/
def Obligations.EncCfg2PacksTheFields : Prop :=
  (∀ (s : State) (r : ZmdiConfig2Codes), 0x7F < r.address →
    exec (.encCfg2 r) s =
      .next { s with responses := s.responses ++ [⟨some (.fieldRange r.address), none⟩] }) ∧
  (∀ (s : State) (r : ZmdiConfig2Codes), r.address ≤ 0x7F → r.wellFormed = false →
    ∃ p ∈ config2Fields r, p.2 < p.1 ∧
      exec (.encCfg2 r) s =
        .next { s with responses := s.responses ++ [⟨some (.fieldRange p.1), none⟩] }) ∧
  (∀ (s : State) (r : ZmdiConfig2Codes), r.wellFormed = true →
    exec (.encCfg2 r) s = .next { s with responses := s.responses ++ [⟨none, some (.word
      (BitVec.ofNat 16 (r.altBusPolarity ||| r.connCheck <<< 1 ||| r.shortCheck <<< 2 |||
        r.address <<< 3 ||| (if r.addrLock = .locked then 0b011 else 0b000) <<< 10 |||
        (if r.eepromLock = .locked then 0b011 else 0b000) <<< 13)))⟩] })

/-- R99. DEC_CFG2 completes for every value; only 0b011 is `Locked`. -/
def Obligations.DecCfg2ReadsTheFields : Prop :=
  ∀ (s : State) (v : Word), ∃ rec : ZmdiConfig2,
    exec (.decCfg2 v) s =
      .next { s with responses := s.responses ++ [⟨none, some (.config2 rec)⟩] } ∧
    (rec.altBusPolarity = if v.getLsbD 0 then .positive else .negative) ∧
    rec.connCheck = v.getLsbD 1 ∧ rec.shortCheck = v.getLsbD 2 ∧
    rec.address.toNat = v.toNat / 2 ^ 3 % 2 ^ 7 ∧
    (rec.addrLock = .locked ↔ v.toNat / 2 ^ 10 % 8 = 0b011) ∧
    (rec.eepromLock = .locked ↔ v.toNat / 2 ^ 13 % 8 = 0b011)

/-- R100 with D38. Clauses: offset out of range; another code out of range; in range with an invalid mux,
flagged with the result 0x0000; in range with a valid mux (the completion). FieldRange goes before InvalidMux
by R115; that the offset is reported before every other out-of-range code is the model's reading (log 7): the
spec orders none of them. -/
def Obligations.EncBridgePacksTheFields : Prop :=
  (∀ (s : State) (r : BridgeConfigCodes), 15 < r.preampOffset →
    exec (.encBridge r) s =
      .next { s with responses := s.responses ++ [⟨some (.fieldRange r.preampOffset), none⟩] }) ∧
  (∀ (s : State) (r : BridgeConfigCodes), r.preampOffset ≤ 15 → r.wellFormed = false →
    ∃ p ∈ bridgeFields r, p.2 < p.1 ∧
      exec (.encBridge r) s =
        .next { s with responses := s.responses ++ [⟨some (.fieldRange p.1), none⟩] }) ∧
  (∀ (s : State) (r : BridgeConfigCodes) (c : BitVec 1), r.wellFormed = true → r.mux = .invalid c →
    exec (.encBridge r) s = .next { s with responses := s.responses ++
      [⟨some (.invalidMux (BitVec.ofNat 2 c.toNat)), some (.word 0x0000)⟩] }) ∧
  (∀ (s : State) (r : BridgeConfigCodes) (m : Nat), r.wellFormed = true →
    (r.mux = .fullBridge ∧ m = 0b10 ∨ r.mux = .halfBridge ∧ m = 0b11) →
    exec (.encBridge r) s = .next { s with responses := s.responses ++ [⟨none, some (.word
      (BitVec.ofNat 16 (r.preampOffset ||| r.preampGain.code <<< 4 ||| r.polarity <<< 7 |||
        r.longIntegration <<< 8 ||| r.bSink <<< 9 ||| m <<< 10 ||| r.disableNulling <<< 12)))⟩] })

/-- R101. DEC_BRIDGE completes for every value; `OK` exactly for the mux codes 0b10 and 0b11, and the
record is returned in both cases. -/
def Obligations.DecBridgeReadsTheFieldsAndFlagsTheMux : Prop :=
  ∀ (s : State) (v : Word), ∃ rec : BridgeConfig,
    exec (.decBridge v) s = .next { s with responses := s.responses ++
      [⟨if v.getLsbD 11 then none else some (.invalidMux (BitVec.ofNat 2 (v.toNat / 2 ^ 10 % 4))),
        some (.bridge rec)⟩] } ∧
    rec.preampOffset.toNat = v.toNat % 16 ∧
    rec.preampGain.code = v.toNat / 2 ^ 4 % 8 ∧
    rec.polarity.toNat = v.toNat / 2 ^ 7 % 2 ∧
    rec.longIntegration = v.getLsbD 8 ∧ rec.bSink = v.getLsbD 9 ∧
    (rec.mux = if v.getLsbD 11 then (if v.getLsbD 10 then .halfBridge else .fullBridge)
      else .invalid (BitVec.ofNat 1 (v.toNat / 2 ^ 10 % 2))) ∧
    rec.disableNulling = v.getLsbD 12

/-- R105. DEC_FACTID completes for every three values. -/
def Obligations.DecFactidReadsTheFields : Prop :=
  ∀ (s : State) (c0 c1 c2 : Word), ∃ id : FactoryId,
    exec (.decFactid c0 c1 c2) s =
      .next { s with responses := s.responses ++ [⟨none, some (.factory id)⟩] } ∧
    id.lotNumber.toNat = c2.toNat * 2 ^ 3 + c0.toNat / 2 ^ 13 ∧
    id.waferNumber.toNat = c0.toNat / 2 ^ 8 % 32 ∧
    id.waferXCoordinate.toNat = c0.toNat % 128 ∧
    id.waferYCoordinate = c1

/-- R107. DEC_GAIN completes for every value. -/
def Obligations.DecGainScalesByTheRangeFlag : Prop :=
  ∀ (s : State) (v : Word),
    exec (.decGain v) s = .next { s with responses := s.responses ++ [⟨none, some (.gain
      (if v.toNat < 2 ^ 15 then (v.toNat : ℚ) / 2 ^ 13
        else ((v.toNat - 2 ^ 15 : Nat) : ℚ) / 2 ^ 13 * 8))⟩] }

/-- R108 with the rounding of R109 and the binary32 reading of R78, which the spec marks as general
knowledge (log 8). Clauses: no exact value; outside [0, 32); fine range and coarse range (the completions),
rounded half away from zero and saturated. -/
def Obligations.EncGainRoundsAndSaturates : Prop :=
  (∀ (s : State) (g : BitVec 32), (binary32 g = .nan ∨ ∃ n : Bool, binary32 g = .infinite n) →
    exec (.encGain g) s = .next { s with responses := s.responses ++
      [⟨some (.gainUnencodable g), some (.word 0x0000)⟩] }) ∧
  (∀ (s : State) (g : BitVec 32) (q : ℚ), binary32 g = .finite q → (q < 0 ∨ 32 ≤ q) →
    exec (.encGain g) s = .next { s with responses := s.responses ++
      [⟨some (.gainUnencodable g), some (.word 0x0000)⟩] }) ∧
  (∀ (s : State) (g : BitVec 32) (q : ℚ), binary32 g = .finite q → 0 ≤ q → q < 4 →
    exec (.encGain g) s = .next { s with responses := s.responses ++
      [⟨none, some (.word (BitVec.ofNat 16 (min ⌊q * 2 ^ 13 + 1 / 2⌋₊ 0x7FFF)))⟩] }) ∧
  (∀ (s : State) (g : BitVec 32) (q : ℚ), binary32 g = .finite q → 4 ≤ q → q < 32 →
    exec (.encGain g) s = .next { s with responses := s.responses ++
      [⟨none, some (.word (BitVec.ofNat 16 (2 ^ 15 + min ⌊q / 8 * 2 ^ 13 + 1 / 2⌋₊ 0x7FFF)))⟩] })

/-! ## Laws of the codecs -/

/-- R70: the eight codes of the preamp gain table, and that decoding inverts them. -/
def Obligations.PreampGainTableIsTheSpecs : Prop :=
  (PreampGain.g1_5.code = 0b000 ∧ PreampGain.g3.code = 0b100 ∧ PreampGain.g6.code = 0b001 ∧
    PreampGain.g12.code = 0b101 ∧ PreampGain.g24.code = 0b010 ∧ PreampGain.g48.code = 0b110 ∧
    PreampGain.g96.code = 0b011 ∧ PreampGain.g192.code = 0b111) ∧
  ∀ (c : BitVec 3) (g : PreampGain), preampGainOf c = g ↔ g.code = c.toNat

/-- R102, first half: decoding what was encoded gives the record back. -/
def Obligations.DecodingAnEncodedRecordGivesItBack : Prop :=
  (∀ (s t : State) (x : ZmdiConfig1), ∃ w : Word,
    exec (.encCfg1 x.codes) s = .next (s.respond ⟨none, some (.word w)⟩) ∧
    exec (.decCfg1 w) t = .next (t.respond ⟨none, some (.config1 x)⟩)) ∧
  (∀ (s t : State) (x : ZmdiConfig2), ∃ w : Word,
    exec (.encCfg2 x.codes) s = .next (s.respond ⟨none, some (.word w)⟩) ∧
    exec (.decCfg2 w) t = .next (t.respond ⟨none, some (.config2 x)⟩)) ∧
  (∀ (s t : State) (x : BridgeConfig), (x.mux = .fullBridge ∨ x.mux = .halfBridge) → ∃ w : Word,
    exec (.encBridge x.codes) s = .next (s.respond ⟨none, some (.word w)⟩) ∧
    exec (.decBridge w) t = .next (t.respond ⟨none, some (.bridge x)⟩))

/-- R102, second half: encoding what was decoded gives the value back up to reserved, write-only and
non-canonical bits. -/
def Obligations.EncodingADecodedValueKeepsTheMeaningfulBits : Prop :=
  (∀ (s t : State) (v : Word), ∃ x : ZmdiConfig1,
    exec (.decCfg1 v) s = .next (s.respond ⟨none, some (.config1 x)⟩) ∧
    exec (.encCfg1 x.codes) t =
      .next (t.respond ⟨none, some (.word ((v &&& 0xFEF8) ||| 0x0001))⟩)) ∧
  (∀ (s t : State) (v : Word), ∃ (x : ZmdiConfig2) (w : Word),
    exec (.decCfg2 v) s = .next (s.respond ⟨none, some (.config2 x)⟩) ∧
    exec (.encCfg2 x.codes) t = .next (t.respond ⟨none, some (.word w)⟩) ∧
    w.toNat % 2 ^ 10 = v.toNat % 2 ^ 10 ∧
    w.toNat / 2 ^ 10 % 8 = (if v.toNat / 2 ^ 10 % 8 = 0b011 then 0b011 else 0b000) ∧
    w.toNat / 2 ^ 13 % 8 = (if v.toNat / 2 ^ 13 % 8 = 0b011 then 0b011 else 0b000)) ∧
  (∀ (s t : State) (v : Word), v.getLsbD 11 = true → ∃ x : BridgeConfig,
    exec (.decBridge v) s = .next (s.respond ⟨none, some (.bridge x)⟩) ∧
    exec (.encBridge x.codes) t = .next (t.respond ⟨none, some (.word (v &&& 0x1FFF))⟩))

/-- R82: encode always writes the fixed and reserved bits, and decode ignores them. That ENC_BRIDGE gives 1 in
bit 11 is no part of R82: it is what R100 infers from the two valid mux codes of R71. -/
def Obligations.EncodedReservedBitsAreFixed : Prop :=
  (∀ (s : State) (r : ZmdiConfig1Codes), r.wellFormed = true → ∃ w : Word,
    exec (.encCfg1 r) s = .next (s.respond ⟨none, some (.word w)⟩) ∧ w &&& 0x0107 = 0x0001) ∧
  (∀ (s : State) (r : BridgeConfigCodes), r.wellFormed = true → r.mux.code = 0b10 ∨ r.mux.code = 0b11 →
    ∃ w : Word, exec (.encBridge r) s = .next (s.respond ⟨none, some (.word w)⟩) ∧
      w &&& 0xE000 = 0 ∧ w.getLsbD 11 = true) ∧
  (∀ (s : State) (v u : Word), v &&& 0xFEF8 = u &&& 0xFEF8 → ∃ x : ZmdiConfig1,
    exec (.decCfg1 v) s = .next (s.respond ⟨none, some (.config1 x)⟩) ∧
    exec (.decCfg1 u) s = .next (s.respond ⟨none, some (.config1 x)⟩)) ∧
  (∀ (s : State) (v u : Word), v &&& 0x1FFF = u &&& 0x1FFF → exec (.decBridge v) s = exec (.decBridge u) s)

/-- R110, first two sentences: the error of encoding and decoding a gain, with the binary32 layout of
log 8. -/
def Obligations.GainRoundTripErrorBounds : Prop :=
  ∀ (s : State) (g : BitVec 32) (q : ℚ), binary32 g = .finite q → 0 ≤ q → q < 32 →
    ∃ w : Word, exec (.encGain g) s = .next (s.respond ⟨none, some (.word w)⟩) ∧
      ∃ d : ℚ, exec (.decGain w) s = .next (s.respond ⟨none, some (.gain d)⟩) ∧
        (q < 32767.5 / 8192 → |d - q| ≤ 1 / 2 ^ 14) ∧
        (32767.5 / 8192 ≤ q → q < 4 → |d - q| < 1 / 2 ^ 13) ∧
        (4 ≤ q → q < 32767.5 / 1024 → |d - q| ≤ 1 / 2 ^ 11) ∧
        (32767.5 / 1024 ≤ q → |d - q| < 1 / 2 ^ 10)

/-- R110, third sentence: encoding a decoded register value; `g` is the operand that stands for the
decoded rational, with the binary32 layout of log 8. -/
def Obligations.GainValuesReencode : Prop :=
  ∀ (s : State) (v : Word) (g : BitVec 32) (d : ℚ),
    exec (.decGain v) s = .next (s.respond ⟨none, some (.gain d)⟩) → binary32 g = .finite d →
    exec (.encGain g) s = .next (s.respond ⟨none, some (.word
      (if v.toNat < 2 ^ 15 ∨ 2 ^ 15 + 4096 ≤ v.toNat then v
        else BitVec.ofNat 16 (8 * (v.toNat % 2 ^ 15))))⟩)

/-- R78: the result of DEC_GAIN is always representable in binary32. The layout of binary32, which R78 names
and does not give, is the model's, PRESUMED (log 8). -/
def Obligations.DecodedGainsAreBinary32Values : Prop :=
  ∀ (s : State) (v : Word), ∃ (g : BitVec 32) (d : ℚ),
    exec (.decGain v) s = .next (s.respond ⟨none, some (.gain d)⟩) ∧ binary32 g = .finite d

/-- The source's own claim of a bound 2^-13 on all of [0, 32), which R110 and C5 say fails on [4, 32)
(binary32 as log 8 reads it). -/
def Obligations.GainErrorWithinTheFineResolutionEverywhere : Prop :=
  ∀ (s : State) (g : BitVec 32) (q d : ℚ) (w : Word), binary32 g = .finite q → 0 ≤ q → q < 32 →
    exec (.encGain g) s = .next (s.respond ⟨none, some (.word w)⟩) →
    exec (.decGain w) s = .next (s.respond ⟨none, some (.gain d)⟩) → |d - q| ≤ 1 / 2 ^ 13

/-! ## Rules of the whole machine -/

/-- R36, R111, R113: every operation in every state completes with exactly one response, only adds to
what a run shows, and leaves the configuration and the caller's requests alone. -/
def Obligations.EveryOperationAnswersExactlyOnce : Prop :=
  ∀ (i : Instr) (s : State), ∃ (t : State) (r : Response) (new : List Event),
    exec i s = .next t ∧ t.responses = s.responses ++ [r] ∧ t.history = s.history ++ new ∧
    t.cfg = s.cfg ∧ t.pending = s.pending ∧ r.status.code ≤ 4 ∧ (r.status = .ok ↔ r.error = none)

/-- R103: a codec operation's answer is the same in every state, and it changes nothing else. -/
def Obligations.CodecOperationsArePure : Prop :=
  ∀ i : Instr, isCodec i = true → ∃ r : Response, ∀ s : State,
    exec i s = .next { s with responses := s.responses ++ [r] }

/-- R27: the fault bit is set exactly by a bus transaction or a power cycle during a write settle, and
never cleared. -/
def Obligations.HazardFaultIsSetExactlyByTrafficInTheSettle : Prop :=
  ∀ (i : Instr) (s t : State) (new : List Event), exec i s = .next t → t.history = s.history ++ new →
    (t.hazardFault = true ↔
      s.hazardFault = true ∨ (0 < s.settleRemaining ∧ ∃ e ∈ new, e.needsSettle = true))

/-- R23: every bus transaction uses the bus address, and only SETADDR writes it. -/
def Obligations.BusTrafficUsesTheBusAddress : Prop :=
  ∀ (i : Instr) (s t : State) (new : List Event), exec i s = .next t → t.history = s.history ++ new →
    (∀ e ∈ new, ∀ a : BusAddr, e.busAddress = some a → a = s.busAddr) ∧
    ((∀ a : Nat, i ≠ .setaddr a) → t.busAddr = s.busAddr)

/-- R24: the bit says that SETADDR has succeeded; under `enforce` it then refuses every further one. -/
def Obligations.AddressChangedBitRecordsTheOneChange : Prop :=
  (∀ (i : Instr) (s t : State) (r : Response), exec i s = .next t → t.responses = s.responses ++ [r] →
    (t.addrChanged = true ↔
      s.addrChanged = true ∨ ((∃ a : Nat, i = .setaddr a) ∧ r.error = none))) ∧
  (∀ (s : State) (a : Nat), s.cfg.modeGuard = .enforce → s.addrChanged = true → ∃ c : Cause,
    exec (.setaddr a) s = .next (s.respond ⟨some c, none⟩))

/-- R25: only PWRCYC changes the level of the power line. -/
def Obligations.OnlyPwrcycDrivesThePowerLine : Prop :=
  ∀ (i : Instr) (s t : State) (new : List Event), exec i s = .next t → t.history = s.history ++ new →
    i ≠ .pwrcyc → t.pwr = s.pwr ∧ ∀ (e : Event) (l : Level), e ∈ new → e ≠ .power l

/-- R26: what changes the write settle still owed. -/
def Obligations.SettleIsOwedByWritesAndPaidBySleep : Prop :=
  ∀ (i : Instr) (s t : State) (new : List Event), exec i s = .next t → t.history = s.history ++ new →
    t.settleRemaining =
      match i with
      | .wrreg _ _ => if new = [] then s.settleRemaining else s.cfg.tWrSettle
      | .sleep d => s.settleRemaining - d
      | .pwrcyc => 0
      | _ => s.settleRemaining

/-- R95: the tracked state after every operation under `enforce`, and where operations succeed. -/
def Obligations.TrackedStateFollowsTheTransitions : Prop :=
  ∀ (i : Instr) (s t : State) (r : Response), s.cfg.modeGuard = .enforce → exec i s = .next t →
    t.responses = s.responses ++ [r] →
    (t.ps =
      match i, r.error with
      | .pwrcyc, _ => .poweredIdle
      | .startcm, none => .commandMode
      | .startnom, none => .normalOperation
      | .startcm, some .sendFailed => .unknown
      | .startnom, some .sendFailed => .unknown
      | .sleep d, _ => if s.ps = .poweredIdle ∧ 0 < d then .unknown else s.ps
      | _, _ => s.ps) ∧
    (r.status = .modeError → t = s.respond r) ∧
    (r.error = none → i = .startcm → s.ps = .poweredIdle) ∧
    (r.error = none → i = .startnom → s.ps = .commandMode) ∧
    (r.error = none → ∀ n : Nat, i = .rdreg n → s.ps = .commandMode) ∧
    (r.error = none → ∀ n v : Nat, i = .wrreg n v → s.ps = .commandMode) ∧
    (r.error = none → i = .rdsample → s.ps = .normalOperation) ∧
    (isCodec i = true ∨ (∃ d : Nat, i = .sleep d) ∨ (∃ a : Nat, i = .setaddr a) →
      ∀ p : ProtoState, r.error ≠ some (.wrongState p))

/-- Under `passthrough` no operation is refused for the tracked state (R85) or for an address already changed
(R93): both sub-causes of ModeError arise only under `enforce` (R112). -/
def Obligations.PassthroughNeverRefuses : Prop :=
  ∀ (i : Instr) (s t : State) (r : Response), s.cfg.modeGuard = .passthrough → exec i s = .next t →
    t.responses = s.responses ++ [r] → r.status ≠ .modeError

/-- R24: along any run under `enforce`, an address already changed stays what it is. -/
def Obligations.AnAddressOnceChangedStaysForTheRun : Prop :=
  ∀ s t : State, Reachable s t → s.cfg.modeGuard = .enforce → s.addrChanged = true →
    t.busAddr = s.busAddr ∧ t.addrChanged = true

/-- R114: ModeError and FieldRange leave no trace but the response. -/
def Obligations.RefusedRequestsLeaveNoTrace : Prop :=
  ∀ (i : Instr) (s t : State) (r : Response), exec i s = .next t → t.responses = s.responses ++ [r] →
    (r.status = .modeError ∨ ∃ n : Nat, r.error = some (.fieldRange n)) → t = s.respond r

/-- R112: class and code of every sub-cause, and which operations raise it with which info; a FieldRange
error's info is an operand, or a field code of the record, that is out of its range, and a BadStatus error's
info is byte 0 of the reply received. -/
def Obligations.SubCausesAreRaisedOnlyAsTabled : Prop :=
  (∀ c : Cause, (c.status, c.sub) =
    match c with
    | .sendFailed => (.transportError, 1)
    | .readFailed => (.transportError, 2)
    | .badStatus _ => (.invalidResponse, 1)
    | .gainUnencodable _ => (.rangeError, 1)
    | .invalidMux _ => (.rangeError, 2)
    | .fieldRange _ => (.rangeError, 3)
    | .nonPositiveSampleCount _ => (.rangeError, 4)
    | .wrongState _ => (.modeError, 1)
    | .addressAlreadyChanged _ => (.modeError, 2)) ∧
  (∀ (i : Instr) (s t : State) (r : Response) (c : Cause), exec i s = .next t →
    t.responses = s.responses ++ [r] → r.error = some c →
    match c with
    | .sendFailed => i = .startcm ∨ i = .startnom ∨ (∃ n, i = .rdreg n) ∨ ∃ n v, i = .wrreg n v
    | .readFailed => i = .rdsample ∨ ∃ n, i = .rdreg n
    | .badStatus st => st ≠ s.cfg.statusOk ∧
        ∃ (n : Nat) (d1 d0 : Byte), i = .rdreg n ∧ s.replyAt 1 = .done [st, d1, d0]
    | .gainUnencodable g => i = .encGain g
    | .invalidMux m => m.toNat ≤ 1 ∧ ((∃ v : Word, i = .decBridge v ∧ v.toNat / 2 ^ 10 % 4 = m.toNat) ∨
        ∃ rec : BridgeConfigCodes, i = .encBridge rec ∧ rec.mux = .invalid (BitVec.ofNat 1 m.toNat))
    | .fieldRange n => (i = .rdreg n ∧ s.cfg.nreg ≤ n) ∨ (∃ v, i = .wrreg n v ∧ s.cfg.nreg ≤ n) ∨
        (∃ r', i = .wrreg r' n ∧ 0xFFFF < n) ∨ (i = .setaddr n ∧ 0x7F < n) ∨
        (∃ rec, i = .encCfg1 rec ∧ ∃ p ∈ config1Fields rec, p.2 < p.1 ∧ p.1 = n) ∨
        (∃ rec, i = .encCfg2 rec ∧ ((n = rec.address ∧ 0x7F < n) ∨
          ∃ p ∈ config2Fields rec, p.2 < p.1 ∧ p.1 = n)) ∨
        (∃ rec, i = .encBridge rec ∧ ((n = rec.preampOffset ∧ 15 < n) ∨
          ∃ p ∈ bridgeFields rec, p.2 < p.1 ∧ p.1 = n))
    | .nonPositiveSampleCount _ => False
    | .wrongState p => p = s.ps ∧ s.cfg.modeGuard = .enforce ∧ (i = .startcm ∨ i = .startnom ∨
        (∃ n, i = .rdreg n) ∨ (∃ n v, i = .wrreg n v) ∨ i = .rdsample)
    | .addressAlreadyChanged a => a = s.busAddr ∧ s.cfg.modeGuard = .enforce ∧ ∃ n, i = .setaddr n)

/-- R63: the length of every frame follows from the operation alone. -/
def Obligations.FrameLengthsAreFixedPerOperation : Prop :=
  ∀ (i : Instr) (s t : State) (new : List Event), exec i s = .next t → t.history = s.history ++ new →
    (new.filterMap Event.written).map List.length <+: (if bytesWritten i = 0 then [] else [bytesWritten i]) ∧
    new.filterMap Event.requested <+: (if bytesRead i = 0 then [] else [bytesRead i])

/-- R58: with the source's codes the block never sends a byte that is not a command as a frame's first
byte. -/
def Obligations.EveryFrameSentBeginsWithACommand : Prop :=
  ∀ (i : Instr) (s t : State) (new : List Event) (bytes : List Byte), s.cfg.hasSourceCodes = true →
    exec i s = .next t → t.history = s.history ++ new → bytes ∈ new.filterMap Event.written →
    ∃ (b : Byte) (rest : List Byte) (cmd : Command), bytes = b :: rest ∧ commandOf s.cfg b = some cmd

/-- R130, R131, R135: an operation that ends with `OK` has waited its holds and delays. -/
def Obligations.CompletedOperationsWaitTheirMinimum : Prop :=
  ∀ (i : Instr) (s t : State) (new : List Event) (r : Response), exec i s = .next t →
    t.history = s.history ++ new → t.responses = s.responses ++ [r] → r.error = none →
    waited new = minDuration s.cfg i

/-- R34, R28: neither the event history nor earlier responses influence an operation. -/
def Obligations.HistoryAndResponsesAreNeverRead : Prop :=
  ∀ (i : Instr) (s t : State) (r : Response) (new h : List Event) (rs : List Response),
    exec i s = .next t → t.history = s.history ++ new → t.responses = s.responses ++ [r] →
    exec i { s with history := h, responses := rs } =
      .next { t with history := h ++ new, responses := rs ++ [r] }

/-- R92, R26: sleeps add up against the settle. -/
def Obligations.SleepsAddUpAgainstTheSettle : Prop :=
  ∀ (s : State) (a b : Nat), ∃ t u v : State, exec (.sleep a) s = .next t ∧ exec (.sleep b) t = .next u ∧
    exec (.sleep (a + b)) s = .next v ∧ u.settleRemaining = v.settleRemaining ∧ u.ps = v.ps ∧
    (s.settleRemaining ≤ a + b → u.settleRemaining = 0)

/-! ## Encodings -/

/-- R57: decoding a command byte, by its bits. -/
def Obligations.CommandBytesDecodeAsTabled : Prop :=
  ∀ b : Byte, commandOf Config.thisHardware b =
    if b.toNat / 32 = 0b000 ∧ b.toNat % 32 ≤ 0x13 then some (.read (b.toNat % 32))
    else if b.toNat / 32 = 0b010 ∧ b.toNat % 32 ≤ 0x13 then some (.write (b.toNat % 32))
    else if b = 0xA0 then some .startCm
    else if b = 0x80 then some .startNom
    else none

/-- Decode and encode agree: the command frame of every well-formed operation that has one is read back as
that operation, whatever bytes follow it; the operations with a frame are those four. -/
def Obligations.DecodingAnEncodedFrameGivesTheOperation : Prop :=
  ∀ (c : Config) (i : Instr), c.hasSourceCodes = true → i.wellFormed c = true →
    ((encode c i).isSome = true ↔
      i = .startcm ∨ i = .startnom ∨ (∃ r, i = .rdreg r) ∨ ∃ r v, i = .wrreg r v) ∧
    ∀ bytes rest : List Byte, encode c i = some bytes → decode c (bytes ++ rest) = .ok (i, rest)

/-- The other direction: what decodes is exactly the frame of a well-formed operation, followed by the
bytes left over. -/
def Obligations.EncodingADecodedFrameGivesTheBytes : Prop :=
  ∀ (c : Config) (bytes rest : List Byte) (i : Instr), c.hasSourceCodes = true →
    decode c bytes = .ok (i, rest) →
    i.wellFormed c = true ∧ ∃ frame : List Byte, encode c i = some frame ∧ bytes = frame ++ rest

/-- Words written out from the patterns of R57 and R60 decode to their operations. -/
def Obligations.TableWordsDecode : Prop :=
  decodeTableWord 8 0b10100000 = some .startcm ∧
  decodeTableWord 8 0b10000000 = some .startnom ∧
  decodeTableWord 8 0b00010011 = some (.rdreg 0x13) ∧
  decodeTableWord 24 0xEFBE45 = some (.wrreg 0x05 0xBEEF) ∧
  decodeTableWord 8 0b00010100 = none ∧ decodeTableWord 8 0b11111111 = none

/-! ## Reset, configuration and steps -/

/-- R29, R125: the state after reset. -/
def Obligations.ResetValuesAreTheSpecs : Prop :=
  State.reset.ps = .unknown ∧ State.reset.ps.code = 0 ∧
  State.reset.busAddr = State.reset.cfg.initialAddress ∧ State.reset.addrChanged = false ∧
  State.reset.pwr = State.reset.cfg.pwrReset ∧ State.reset.settleRemaining = 0 ∧
  State.reset.hazardFault = false ∧ State.reset.responses = [] ∧ State.reset.history = []

/-- R10, R11: the parameters this hardware takes, and what is known of the OPEN register roles. -/
def Obligations.ConfigurationIsTheSourceLiterals : Prop :=
  State.reset.cfg.nreg = 20 ∧ State.reset.cfg.wrOffset = 0x40 ∧ State.reset.cfg.cmdStartCm = 0xA0 ∧
  State.reset.cfg.cmdStartNom = 0x80 ∧ State.reset.cfg.statusOk = 0x5A ∧
  500 ≤ State.reset.cfg.tPwrLow ∧ 500 ≤ State.reset.cfg.tPwrHigh ∧ 100 ≤ State.reset.cfg.tCmSettle ∧
  100 ≤ State.reset.cfg.tRdDelay ∧ State.reset.cfg.tWrSettle = 150000 ∧
  State.reset.cfg.modeGuard = .enforce ∧
  State.reset.cfg.regConfig1 ≤ 0x13 ∧ State.reset.cfg.regConfig2 ≤ 0x13 ∧
  State.reset.cfg.regBridge ≤ 0x13 ∧ State.reset.cfg.regGain ≤ 0x13 ∧
  State.reset.cfg.regCustId0 + 2 ≤ 0x13 ∧ State.reset.cfg.regOffset ≤ 0x13

/-- The invariant holds at reset. Its part on `busCount` is about the model's own counter and its reset value 0,
a DESIGN CHOICE of log 1; the other parts are the spec's. -/
def Obligations.ResetIsConsistent : Prop := State.reset.Consistent

/-- Every step keeps the invariant (R22 to R26, R86 for the line that is high). Its part on `busCount` is about
the model's own counter, a DESIGN CHOICE of log 1. -/
def Obligations.EveryStepKeepsConsistency : Prop :=
  ∀ s t : State, s.Consistent → Sys2Proof.Machine.step s = .next t → t.Consistent

/-- R27: along any run, from any state, a set fault bit stays set; so a run that ends meaningful was
meaningful all along. -/
def Obligations.AMeaningfulEndWasMeaningfulAllAlong : Prop :=
  ∀ s t : State, Reachable s t → t.meaningful = true → s.meaningful = true

/-- A step performs the next request: with the operation it asks for, that request no longer pending. The
clauses say what a step does with no request, with a request for an operation, with a frame that decodes,
and with a frame that does not. R35 and R36 give the second clause; the others are the model's choices: that an
idle step changes nothing (log 2), that a request may be the bytes of a frame (log 3), and that bytes which
hold no command are refused (log 10). -/
def Obligations.StepPerformsTheNextRequest : Prop :=
  (∀ s : State, s.pending = [] → Sys2Proof.Machine.step s = .next s) ∧
  (∀ (s : State) (i : Instr) (q : List Request), s.pending = .op i :: q →
    Sys2Proof.Machine.step s = exec i { s with pending := q }) ∧
  (∀ (s : State) (bytes rest : List Byte) (i : Instr) (q : List Request),
    s.pending = .frame bytes :: q → decode s.cfg bytes = .ok (i, rest) →
    Sys2Proof.Machine.step s = exec i { s with pending := q }) ∧
  (∀ (s : State) (bytes : List Byte) (e : DecodeError) (q : List Request),
    s.pending = .frame bytes :: q → decode s.cfg bytes = .error e →
    Sys2Proof.Machine.step s = .refused (.notACommandFrame e))

/-- R36: a step accepts at most one request and answers it; the configuration stays. -/
def Obligations.AStepAnswersOneRequest : Prop :=
  ∀ s t : State, Sys2Proof.Machine.step s = .next t →
    t.cfg = s.cfg ∧ t.pending = s.pending.drop 1 ∧ s.responses <+: t.responses ∧
    s.history <+: t.history ∧
    t.responses.length + t.pending.length = s.responses.length + s.pending.length

/-! ## Pseudo-operations (R80) -/

/-- ENTERCM, from any state, where the transport takes the byte (what a caller does at an error: log 13). -/
def Obligations.EntercmReachesCommandMode : Prop :=
  ∀ (p : OnError) (s : State) (bytes : List Byte), s.replyAt 0 = .done bytes →
    enterCm p s = .next { s with
      ps := .commandMode
      pwr := some .high
      settleRemaining := 0
      hazardFault := s.hazardFault || decide (0 < s.settleRemaining)
      answers := s.answers.drop 1
      busCount := s.busCount + 1
      history := s.history ++ [.power .low, .wait s.cfg.tPwrLow, .power .high, .wait s.cfg.tPwrHigh,
        .write s.busAddr [s.cfg.cmdStartCm] .ok, .wait s.cfg.tCmSettle]
      responses := s.responses ++ [⟨none, none⟩, ⟨none, none⟩] }

/-- RMW_CFG1 with no change writes the value back up to the reserved and write-only bits (R80, R82), whatever
the caller would do at an error (log 13). -/
def Obligations.RmwCfg1WithoutChangeWritesTheValueBack : Prop :=
  ∀ (p : OnError) (s : State) (b0 b2 : List Byte) (v : Word), s.ps = .commandMode →
    s.cfg.regConfig1 < s.cfg.nreg → s.settleRemaining = 0 → s.replyAt 0 = .done b0 →
    s.replyAt 1 = .done [s.cfg.statusOk, BitVec.ofNat 8 (v.toNat / 256), BitVec.ofNat 8 v.toNat] →
    s.replyAt 2 = .done b2 →
    ∃ t : State, rmwConfig1 p id s = .next t ∧ t.settleRemaining = s.cfg.tWrSettle ∧
      t.hazardFault = s.hazardFault ∧
      t.history = s.history ++ [.write s.busAddr [BitVec.ofNat 8 s.cfg.regConfig1] .ok,
        .wait s.cfg.tRdDelay,
        .read s.busAddr 3
          (.ok [s.cfg.statusOk, BitVec.ofNat 8 (v.toNat / 256), BitVec.ofNat 8 v.toNat]),
        .write s.busAddr [BitVec.ofNat 8 (s.cfg.wrOffset + s.cfg.regConfig1),
          BitVec.ofNat 8 (((v &&& 0xFEF8) ||| 0x0001).toNat / 256),
          BitVec.ofNat 8 ((v &&& 0xFEF8) ||| 0x0001).toNat] .ok]

/-- RMW_BRIDGE stops at a flagged decode with the events of its RDREG alone, unless the caller goes on; then
it also writes the frame of the record that the caller's function made of the flagged one (R80, R101, R113).
That what a caller does at an error is an argument is the model's choice (log 13). -/
def Obligations.RmwBridgeRepairsAnInvalidMuxOnlyOnRequest : Prop :=
  ∀ (s : State) (f : BridgeConfig → BridgeConfig) (b0 b2 : List Byte) (v w : Word), s.ps = .commandMode →
    s.cfg.regBridge < s.cfg.nreg → s.replyAt 0 = .done b0 →
    s.replyAt 1 = .done [s.cfg.statusOk, BitVec.ofNat 8 (v.toNat / 256), BitVec.ofNat 8 v.toNat] →
    s.replyAt 2 = .done b2 → v.getLsbD 11 = false →
    (f (decBridgeRecord v)).mux = .fullBridge ∨ (f (decBridgeRecord v)).mux = .halfBridge →
    w = encBridgeWord (f (decBridgeRecord v)).codes →
    (∃ t : State, rmwBridge .stop f s = .next t ∧ t.settleRemaining = s.settleRemaining ∧
      t.history = s.history ++ [.write s.busAddr [BitVec.ofNat 8 s.cfg.regBridge] .ok,
        .wait s.cfg.tRdDelay,
        .read s.busAddr 3
          (.ok [s.cfg.statusOk, BitVec.ofNat 8 (v.toNat / 256), BitVec.ofNat 8 v.toNat])] ∧
      t.responses = s.responses ++ [⟨none, some (.word v)⟩,
        ⟨some (.invalidMux (field v 10 2)), some (.bridge (decBridgeRecord v))⟩]) ∧
    (∃ t : State, rmwBridge .goOn f s = .next t ∧ t.settleRemaining = s.cfg.tWrSettle ∧
      t.history = s.history ++ [.write s.busAddr [BitVec.ofNat 8 s.cfg.regBridge] .ok,
        .wait s.cfg.tRdDelay,
        .read s.busAddr 3
          (.ok [s.cfg.statusOk, BitVec.ofNat 8 (v.toNat / 256), BitVec.ofNat 8 v.toNat]),
        .write s.busAddr [BitVec.ofNat 8 (s.cfg.wrOffset + s.cfg.regBridge),
          BitVec.ofNat 8 (w.toNat / 256), BitVec.ofNat 8 w.toNat] .ok] ∧
      t.responses = s.responses ++ [⟨none, some (.word v)⟩,
        ⟨some (.invalidMux (field v 10 2)), some (.bridge (decBridgeRecord v))⟩,
        ⟨none, some (.word w)⟩, ⟨none, none⟩])

/-- RDFACTID reads the three customer-ID registers in order, writes none, and ends with the decoded
identification (R80, R104, R105), whatever the caller would do at an error (log 13). -/
def Obligations.RdfactidReadsThreeRegistersAndDecodesThem : Prop :=
  ∀ (p : OnError) (s : State) (b0 b2 b4 : List Byte) (c0 c1 c2 : Word), s.ps = .commandMode →
    s.cfg.regCustId0 + 2 < s.cfg.nreg →
    s.replyAt 0 = .done b0 → s.replyAt 2 = .done b2 → s.replyAt 4 = .done b4 →
    s.replyAt 1 = .done [s.cfg.statusOk, BitVec.ofNat 8 (c0.toNat / 256), BitVec.ofNat 8 c0.toNat] →
    s.replyAt 3 = .done [s.cfg.statusOk, BitVec.ofNat 8 (c1.toNat / 256), BitVec.ofNat 8 c1.toNat] →
    s.replyAt 5 = .done [s.cfg.statusOk, BitVec.ofNat 8 (c2.toNat / 256), BitVec.ofNat 8 c2.toNat] →
    ∃ (t : State) (new : List Event) (id : FactoryId), rdFactId p s = .next t ∧
      t.responses = s.responses ++ [⟨none, some (.word c0)⟩, ⟨none, some (.word c1)⟩,
        ⟨none, some (.word c2)⟩, ⟨none, some (.factory id)⟩] ∧
      t.history = s.history ++ new ∧
      new.filterMap Event.written = [[BitVec.ofNat 8 s.cfg.regCustId0],
        [BitVec.ofNat 8 (s.cfg.regCustId0 + 1)], [BitVec.ofNat 8 (s.cfg.regCustId0 + 2)]] ∧
      id.lotNumber.toNat = c2.toNat * 2 ^ 3 + c0.toNat / 2 ^ 13 ∧
      id.waferNumber.toNat = c0.toNat / 2 ^ 8 % 32 ∧ id.waferXCoordinate.toNat = c0.toNat % 128 ∧
      id.waferYCoordinate = c1
end

