-- ==== Sys2Proof/Laws/Bits.lean ====
section
/-! SUPPORT. One lemma per bit-field helper and per operand form: what each computes, in numbers. -/

namespace Sys2Proof.Machine

/-! Fields and byte order. -/

theorem field_getLsbD (v : Word) (lo w i : Nat) :
    (field v lo w).getLsbD i = (decide (i < w) && v.getLsbD (lo + i)) := by
  simp [field, BitVec.getLsbD_extractLsb']

theorem field_toNat (v : Word) (lo w : Nat) : (field v lo w).toNat = v.toNat / 2 ^ lo % 2 ^ w := by
  simp [field, Nat.shiftRight_eq_div_pow]

theorem place_eq_ofNat (n k : Nat) : place n k = BitVec.ofNat 16 (n <<< k) := by
  apply BitVec.eq_of_toNat_eq
  rw [place, BitVec.toNat_shiftLeft, BitVec.toNat_ofNat, BitVec.toNat_ofNat, Nat.shiftLeft_eq,
    Nat.shiftLeft_eq, Nat.mod_mul_mod]

/-- The big-endian value of two bytes (R43). -/
theorem bigEndian_eq_ofNat (d1 d0 : Byte) :
    bigEndian d1 d0 = BitVec.ofNat 16 (d1.toNat * 256 + d0.toNat) := by
  apply BitVec.eq_of_toNat_eq
  have h1 := d1.isLt
  have h0 := d0.isLt
  rw [bigEndian, BitVec.toNat_or, BitVec.toNat_shiftLeft, BitVec.toNat_setWidth, BitVec.toNat_setWidth,
    BitVec.toNat_ofNat, Nat.mod_eq_of_lt (show d1.toNat < 2 ^ 16 by omega),
    Nat.mod_eq_of_lt (show d0.toNat < 2 ^ 16 by omega), Nat.shiftLeft_eq,
    Nat.mod_eq_of_lt (show d1.toNat * 2 ^ 8 < 2 ^ 16 by omega), Nat.mod_eq_of_lt (by omega),
    Nat.mul_comm d1.toNat, ← Nat.two_pow_add_eq_or_of_lt h0]
  omega

/-- The 14-bit sample (R44, R62). -/
theorem sampleValue_eq_ofNat (b0 b1 : Byte) :
    sampleValue b0 b1 = BitVec.ofNat 16 (b0.toNat % 64 * 256 + b1.toNat) := by
  have h : (b0 &&& 0x3F#8).toNat = b0.toNat % 64 := by
    rw [BitVec.toNat_and]
    exact Nat.and_two_pow_sub_one_eq_mod _ 6
  rw [← h, ← bigEndian_eq_ofNat]
  rfl

theorem hiByte_ofNat {v : Nat} (h : v ≤ 0xFFFF) : hiByte (BitVec.ofNat 16 v) = BitVec.ofNat 8 (v / 256) := by
  apply BitVec.eq_of_toNat_eq
  simp [hiByte, field, Nat.shiftRight_eq_div_pow]
  omega

theorem loByte_ofNat (v : Nat) : loByte (BitVec.ofNat 16 v) = BitVec.ofNat 8 v := by
  apply BitVec.eq_of_toNat_eq
  simp [loByte, field, Nat.shiftRight_eq_div_pow]

/-- The two data bytes of a frame make up the value they were cut from (R60). -/
theorem bigEndian_hiByte_loByte (v : Word) : bigEndian (hiByte v) (loByte v) = v := by
  have h := v.isLt
  rw [bigEndian_eq_ofNat]
  apply BitVec.eq_of_toNat_eq
  simp [hiByte, loByte, field, Nat.shiftRight_eq_div_pow]
  omega

/-! Operand forms. -/

theorem updateRateOf_spec (c : BitVec 2) : (updateRateOf c).code = c.toNat := by
  revert c; decide

theorem lockOf_eq_locked (x : BitVec 3) : lockOf x = .locked ↔ x.toNat = 0b011 := by
  revert x; decide

theorem muxOf_eq (m : BitVec 2) : muxOf m =
    if m.getLsbD 1 then (if m.getLsbD 0 then .halfBridge else .fullBridge)
    else .invalid (BitVec.ofNat 1 (m.toNat % 2)) := by
  revert m; decide

/-! Well-formed records have every code in range. -/

theorem ZmdiConfig1Codes_wellFormed_iff (r : ZmdiConfig1Codes) :
    r.wellFormed = true ↔ ∀ p ∈ config1Fields r, p.1 ≤ p.2 := by
  simp [ZmdiConfig1Codes.wellFormed, config1Fields, and_assoc]

theorem ZmdiConfig2Codes_wellFormed_iff (r : ZmdiConfig2Codes) :
    r.wellFormed = true ↔ (∀ p ∈ config2Fields r, p.1 ≤ p.2) ∧ r.address ≤ 0x7F := by
  simp [ZmdiConfig2Codes.wellFormed, config2Fields, and_assoc]

theorem BridgeConfigCodes_wellFormed_iff (r : BridgeConfigCodes) :
    r.wellFormed = true ↔ r.preampOffset ≤ 15 ∧ ∀ p ∈ bridgeFields r, p.1 ≤ p.2 := by
  simp [BridgeConfigCodes.wellFormed, bridgeFields, and_assoc]

end Sys2Proof.Machine
end

