-- ==== Sys2Proof/Laws/State.lean ====
section
/-! SUPPORT. What each named update of the state does to each field; all true by rfl. -/

namespace Sys2Proof.Machine

@[simp] theorem State.emit_ps (s : State) (e : Event) : (s.emit e).ps = s.ps := rfl
@[simp] theorem State.emit_busAddr (s : State) (e : Event) : (s.emit e).busAddr = s.busAddr := rfl
@[simp] theorem State.emit_addrChanged (s : State) (e : Event) : (s.emit e).addrChanged = s.addrChanged := rfl
@[simp] theorem State.emit_pwr (s : State) (e : Event) : (s.emit e).pwr = s.pwr := rfl
@[simp] theorem State.emit_settleRemaining (s : State) (e : Event) : (s.emit e).settleRemaining = s.settleRemaining := rfl
@[simp] theorem State.emit_hazardFault (s : State) (e : Event) : (s.emit e).hazardFault = s.hazardFault := rfl
@[simp] theorem State.emit_responses (s : State) (e : Event) : (s.emit e).responses = s.responses := rfl
@[simp] theorem State.emit_history (s : State) (e : Event) : (s.emit e).history = s.history ++ [e] := rfl
@[simp] theorem State.emit_cfg (s : State) (e : Event) : (s.emit e).cfg = s.cfg := rfl
@[simp] theorem State.emit_pending (s : State) (e : Event) : (s.emit e).pending = s.pending := rfl
@[simp] theorem State.emit_answers (s : State) (e : Event) : (s.emit e).answers = s.answers := rfl
@[simp] theorem State.emit_busCount (s : State) (e : Event) : (s.emit e).busCount = s.busCount := rfl

@[simp] theorem State.respond_ps (s : State) (r : Response) : (s.respond r).ps = s.ps := rfl
@[simp] theorem State.respond_busAddr (s : State) (r : Response) : (s.respond r).busAddr = s.busAddr := rfl
@[simp] theorem State.respond_addrChanged (s : State) (r : Response) : (s.respond r).addrChanged = s.addrChanged := rfl
@[simp] theorem State.respond_pwr (s : State) (r : Response) : (s.respond r).pwr = s.pwr := rfl
@[simp] theorem State.respond_settleRemaining (s : State) (r : Response) : (s.respond r).settleRemaining = s.settleRemaining := rfl
@[simp] theorem State.respond_hazardFault (s : State) (r : Response) : (s.respond r).hazardFault = s.hazardFault := rfl
@[simp] theorem State.respond_responses (s : State) (r : Response) : (s.respond r).responses = s.responses ++ [r] := rfl
@[simp] theorem State.respond_history (s : State) (r : Response) : (s.respond r).history = s.history := rfl
@[simp] theorem State.respond_cfg (s : State) (r : Response) : (s.respond r).cfg = s.cfg := rfl
@[simp] theorem State.respond_pending (s : State) (r : Response) : (s.respond r).pending = s.pending := rfl
@[simp] theorem State.respond_answers (s : State) (r : Response) : (s.respond r).answers = s.answers := rfl
@[simp] theorem State.respond_busCount (s : State) (r : Response) : (s.respond r).busCount = s.busCount := rfl

@[simp] theorem State.setPs_ps (s : State) (p : ProtoState) : (s.setPs p).ps = p := rfl
@[simp] theorem State.setPs_busAddr (s : State) (p : ProtoState) : (s.setPs p).busAddr = s.busAddr := rfl
@[simp] theorem State.setPs_addrChanged (s : State) (p : ProtoState) : (s.setPs p).addrChanged = s.addrChanged := rfl
@[simp] theorem State.setPs_pwr (s : State) (p : ProtoState) : (s.setPs p).pwr = s.pwr := rfl
@[simp] theorem State.setPs_settleRemaining (s : State) (p : ProtoState) : (s.setPs p).settleRemaining = s.settleRemaining := rfl
@[simp] theorem State.setPs_hazardFault (s : State) (p : ProtoState) : (s.setPs p).hazardFault = s.hazardFault := rfl
@[simp] theorem State.setPs_responses (s : State) (p : ProtoState) : (s.setPs p).responses = s.responses := rfl
@[simp] theorem State.setPs_history (s : State) (p : ProtoState) : (s.setPs p).history = s.history := rfl
@[simp] theorem State.setPs_cfg (s : State) (p : ProtoState) : (s.setPs p).cfg = s.cfg := rfl
@[simp] theorem State.setPs_pending (s : State) (p : ProtoState) : (s.setPs p).pending = s.pending := rfl
@[simp] theorem State.setPs_answers (s : State) (p : ProtoState) : (s.setPs p).answers = s.answers := rfl
@[simp] theorem State.setPs_busCount (s : State) (p : ProtoState) : (s.setPs p).busCount = s.busCount := rfl

@[simp] theorem State.setPwr_ps (s : State) (l : Level) : (s.setPwr l).ps = s.ps := rfl
@[simp] theorem State.setPwr_busAddr (s : State) (l : Level) : (s.setPwr l).busAddr = s.busAddr := rfl
@[simp] theorem State.setPwr_addrChanged (s : State) (l : Level) : (s.setPwr l).addrChanged = s.addrChanged := rfl
@[simp] theorem State.setPwr_pwr (s : State) (l : Level) : (s.setPwr l).pwr = some l := rfl
@[simp] theorem State.setPwr_settleRemaining (s : State) (l : Level) : (s.setPwr l).settleRemaining = s.settleRemaining := rfl
@[simp] theorem State.setPwr_hazardFault (s : State) (l : Level) : (s.setPwr l).hazardFault = s.hazardFault := rfl
@[simp] theorem State.setPwr_responses (s : State) (l : Level) : (s.setPwr l).responses = s.responses := rfl
@[simp] theorem State.setPwr_history (s : State) (l : Level) : (s.setPwr l).history = s.history := rfl
@[simp] theorem State.setPwr_cfg (s : State) (l : Level) : (s.setPwr l).cfg = s.cfg := rfl
@[simp] theorem State.setPwr_pending (s : State) (l : Level) : (s.setPwr l).pending = s.pending := rfl
@[simp] theorem State.setPwr_answers (s : State) (l : Level) : (s.setPwr l).answers = s.answers := rfl
@[simp] theorem State.setPwr_busCount (s : State) (l : Level) : (s.setPwr l).busCount = s.busCount := rfl

@[simp] theorem State.setSettle_ps (s : State) (n : Nat) : (s.setSettle n).ps = s.ps := rfl
@[simp] theorem State.setSettle_busAddr (s : State) (n : Nat) : (s.setSettle n).busAddr = s.busAddr := rfl
@[simp] theorem State.setSettle_addrChanged (s : State) (n : Nat) : (s.setSettle n).addrChanged = s.addrChanged := rfl
@[simp] theorem State.setSettle_pwr (s : State) (n : Nat) : (s.setSettle n).pwr = s.pwr := rfl
@[simp] theorem State.setSettle_settleRemaining (s : State) (n : Nat) : (s.setSettle n).settleRemaining = n := rfl
@[simp] theorem State.setSettle_hazardFault (s : State) (n : Nat) : (s.setSettle n).hazardFault = s.hazardFault := rfl
@[simp] theorem State.setSettle_responses (s : State) (n : Nat) : (s.setSettle n).responses = s.responses := rfl
@[simp] theorem State.setSettle_history (s : State) (n : Nat) : (s.setSettle n).history = s.history := rfl
@[simp] theorem State.setSettle_cfg (s : State) (n : Nat) : (s.setSettle n).cfg = s.cfg := rfl
@[simp] theorem State.setSettle_pending (s : State) (n : Nat) : (s.setSettle n).pending = s.pending := rfl
@[simp] theorem State.setSettle_answers (s : State) (n : Nat) : (s.setSettle n).answers = s.answers := rfl
@[simp] theorem State.setSettle_busCount (s : State) (n : Nat) : (s.setSettle n).busCount = s.busCount := rfl

@[simp] theorem State.setHazard_ps (s : State) : (s.setHazard).ps = s.ps := rfl
@[simp] theorem State.setHazard_busAddr (s : State) : (s.setHazard).busAddr = s.busAddr := rfl
@[simp] theorem State.setHazard_addrChanged (s : State) : (s.setHazard).addrChanged = s.addrChanged := rfl
@[simp] theorem State.setHazard_pwr (s : State) : (s.setHazard).pwr = s.pwr := rfl
@[simp] theorem State.setHazard_settleRemaining (s : State) : (s.setHazard).settleRemaining = s.settleRemaining := rfl
@[simp] theorem State.setHazard_hazardFault (s : State) : (s.setHazard).hazardFault = true := rfl
@[simp] theorem State.setHazard_responses (s : State) : (s.setHazard).responses = s.responses := rfl
@[simp] theorem State.setHazard_history (s : State) : (s.setHazard).history = s.history := rfl
@[simp] theorem State.setHazard_cfg (s : State) : (s.setHazard).cfg = s.cfg := rfl
@[simp] theorem State.setHazard_pending (s : State) : (s.setHazard).pending = s.pending := rfl
@[simp] theorem State.setHazard_answers (s : State) : (s.setHazard).answers = s.answers := rfl
@[simp] theorem State.setHazard_busCount (s : State) : (s.setHazard).busCount = s.busCount := rfl

@[simp] theorem State.setAddr_ps (s : State) (a : BusAddr) : (s.setAddr a).ps = s.ps := rfl
@[simp] theorem State.setAddr_busAddr (s : State) (a : BusAddr) : (s.setAddr a).busAddr = a := rfl
@[simp] theorem State.setAddr_addrChanged (s : State) (a : BusAddr) : (s.setAddr a).addrChanged = true := rfl
@[simp] theorem State.setAddr_pwr (s : State) (a : BusAddr) : (s.setAddr a).pwr = s.pwr := rfl
@[simp] theorem State.setAddr_settleRemaining (s : State) (a : BusAddr) : (s.setAddr a).settleRemaining = s.settleRemaining := rfl
@[simp] theorem State.setAddr_hazardFault (s : State) (a : BusAddr) : (s.setAddr a).hazardFault = s.hazardFault := rfl
@[simp] theorem State.setAddr_responses (s : State) (a : BusAddr) : (s.setAddr a).responses = s.responses := rfl
@[simp] theorem State.setAddr_history (s : State) (a : BusAddr) : (s.setAddr a).history = s.history := rfl
@[simp] theorem State.setAddr_cfg (s : State) (a : BusAddr) : (s.setAddr a).cfg = s.cfg := rfl
@[simp] theorem State.setAddr_pending (s : State) (a : BusAddr) : (s.setAddr a).pending = s.pending := rfl
@[simp] theorem State.setAddr_answers (s : State) (a : BusAddr) : (s.setAddr a).answers = s.answers := rfl
@[simp] theorem State.setAddr_busCount (s : State) (a : BusAddr) : (s.setAddr a).busCount = s.busCount := rfl

@[simp] theorem State.dropRequest_ps (s : State) : (s.dropRequest).ps = s.ps := rfl
@[simp] theorem State.dropRequest_busAddr (s : State) : (s.dropRequest).busAddr = s.busAddr := rfl
@[simp] theorem State.dropRequest_addrChanged (s : State) : (s.dropRequest).addrChanged = s.addrChanged := rfl
@[simp] theorem State.dropRequest_pwr (s : State) : (s.dropRequest).pwr = s.pwr := rfl
@[simp] theorem State.dropRequest_settleRemaining (s : State) : (s.dropRequest).settleRemaining = s.settleRemaining := rfl
@[simp] theorem State.dropRequest_hazardFault (s : State) : (s.dropRequest).hazardFault = s.hazardFault := rfl
@[simp] theorem State.dropRequest_responses (s : State) : (s.dropRequest).responses = s.responses := rfl
@[simp] theorem State.dropRequest_history (s : State) : (s.dropRequest).history = s.history := rfl
@[simp] theorem State.dropRequest_cfg (s : State) : (s.dropRequest).cfg = s.cfg := rfl
@[simp] theorem State.dropRequest_pending (s : State) : (s.dropRequest).pending = s.pending.drop 1 := rfl
@[simp] theorem State.dropRequest_answers (s : State) : (s.dropRequest).answers = s.answers := rfl
@[simp] theorem State.dropRequest_busCount (s : State) : (s.dropRequest).busCount = s.busCount := rfl

@[simp] theorem State.dropReply_ps (s : State) : (s.dropReply).ps = s.ps := rfl
@[simp] theorem State.dropReply_busAddr (s : State) : (s.dropReply).busAddr = s.busAddr := rfl
@[simp] theorem State.dropReply_addrChanged (s : State) : (s.dropReply).addrChanged = s.addrChanged := rfl
@[simp] theorem State.dropReply_pwr (s : State) : (s.dropReply).pwr = s.pwr := rfl
@[simp] theorem State.dropReply_settleRemaining (s : State) : (s.dropReply).settleRemaining = s.settleRemaining := rfl
@[simp] theorem State.dropReply_hazardFault (s : State) : (s.dropReply).hazardFault = s.hazardFault := rfl
@[simp] theorem State.dropReply_responses (s : State) : (s.dropReply).responses = s.responses := rfl
@[simp] theorem State.dropReply_history (s : State) : (s.dropReply).history = s.history := rfl
@[simp] theorem State.dropReply_cfg (s : State) : (s.dropReply).cfg = s.cfg := rfl
@[simp] theorem State.dropReply_pending (s : State) : (s.dropReply).pending = s.pending := rfl
@[simp] theorem State.dropReply_answers (s : State) : (s.dropReply).answers = s.answers.drop 1 := rfl
@[simp] theorem State.dropReply_busCount (s : State) : (s.dropReply).busCount = s.busCount + 1 := rfl

end Sys2Proof.Machine
end

