-- ==== Sys2Proof/Laws/Ops.lean ====
section
/-! SUPPORT. One lemma per shared operation that says once what it can do. -/

namespace Sys2Proof.Machine

/-! Replies. -/

@[simp] theorem replyAt_emit (s : State) (e : Event) (k : Nat) : (s.emit e).replyAt k = s.replyAt k := rfl

@[simp] theorem replyAt_setHazard (s : State) (k : Nat) : s.setHazard.replyAt k = s.replyAt k := rfl

/-- The replies after one transaction are the later ones. -/
@[simp] theorem replyAt_dropReply (s : State) (k : Nat) : s.dropReply.replyAt k = s.replyAt (k + 1) := by
  simp only [State.replyAt, State.dropReply_answers, State.dropReply_busCount, List.getElem?_drop,
    Nat.add_comm 1 k, Nat.add_assoc]

@[simp] theorem replyAt_wait (s : State) (t k : Nat) : (wait t s).replyAt k = s.replyAt k := rfl

/-- A reply depends on the fixed answers and the transaction count alone. -/
theorem replyAt_congr {s t : State} (ha : s.answers = t.answers) (hb : s.busCount = t.busCount) (k : Nat) :
    s.replyAt k = t.replyAt k := by
  simp only [State.replyAt, ha, hb]

@[simp] theorem writeResult_failed : writeResult .failed = .fail := rfl

@[simp] theorem writeResult_done (bytes : List Byte) : writeResult (.done bytes) = .ok := rfl

@[simp] theorem readResult_failed (n : Nat) : readResult n .failed = .fail := rfl

/-- A read is `Ok` exactly when the transport delivers the number of bytes asked for (R31). -/
theorem readResult_eq_ok {n : Nat} {r : TransportReply} {bytes : List Byte} :
    readResult n r = .ok bytes ↔ r = .done bytes ∧ bytes.length = n := by
  cases r with
  | failed => simp
  | done b =>
    simp only [readResult]
    split <;> simp_all <;> rintro rfl <;> assumption

/-- A read is `Fail` exactly when the transport fails or delivers another number of bytes (R31). -/
theorem readResult_eq_fail {n : Nat} {r : TransportReply} :
    readResult n r = .fail ↔ r = .failed ∨ ∃ bytes, r = .done bytes ∧ bytes.length ≠ n := by
  cases r with
  | failed => simp
  | done b => simp [readResult]

/-! The hazard check and the guard. -/

/-- All the hazard check does (R129). -/
theorem hazardCheck_eq (s : State) : hazardCheck s =
    { s with hazardFault := s.hazardFault || decide (0 < s.settleRemaining) } := by
  unfold hazardCheck
  split <;> rename_i h
  · simp [State.setHazard, h]
  · simp [h]

@[simp] theorem replyAt_hazardCheck (s : State) (k : Nat) : (hazardCheck s).replyAt k = s.replyAt k := by
  unfold hazardCheck
  split <;> rfl

/-- The guard lets an operation pass (R85). -/
theorem guard_eq_none {p : ProtoState} {s : State} :
    guard p s = none ↔ s.cfg.modeGuard = .passthrough ∨ s.ps = p := by
  unfold guard
  cases h : s.cfg.modeGuard <;> by_cases hp : s.ps = p <;> simp [hp]

/-- The guard refuses an operation (R85). -/
theorem guard_eq_some {p : ProtoState} {s : State} {c : Cause} :
    guard p s = some c ↔ s.cfg.modeGuard = .enforce ∧ s.ps ≠ p ∧ c = .wrongState s.ps := by
  unfold guard
  split <;> simp_all [eq_comm]

/-! Primitives. -/

/-- All `busWrite` does. -/
theorem busWrite_eq (bytes : List Byte) (s : State) : busWrite bytes s =
    (writeResult (s.replyAt 0), { s with
      answers := s.answers.drop 1
      busCount := s.busCount + 1
      history := s.history ++ [.write s.busAddr bytes (writeResult (s.replyAt 0))] }) := rfl

/-- All `busRead` does. -/
theorem busRead_eq (n : Nat) (s : State) : busRead n s =
    (readResult n (s.replyAt 0), { s with
      answers := s.answers.drop 1
      busCount := s.busCount + 1
      history := s.history ++ [.read s.busAddr n (readResult n (s.replyAt 0))] }) := rfl

/-- All `setPower` does. -/
theorem setPower_eq (l : Level) (s : State) :
    setPower l s = { s with pwr := some l, history := s.history ++ [.power l] } := rfl

/-- All `wait` does. -/
theorem wait_eq (t : Nat) (s : State) : wait t s = { s with history := s.history ++ [.wait t] } := rfl

/-! Range checks. -/

theorem reportOne_eq_none {pick : Nat} {ns : List Nat} : reportOne pick ns = none ↔ ns = [] := by
  cases ns with
  | nil => simp [reportOne]
  | cons a l => cases l <;> simp [reportOne]

/-- Whatever the pick is, a reported operand is one of the out-of-range ones. -/
theorem reportOne_mem {pick : Nat} {ns : List Nat} {n : Nat} (h : reportOne pick ns = some n) : n ∈ ns := by
  unfold reportOne at h
  split at h
  · cases h
  · cases h; simp
  · rename_i l _ _
    cases h
    have hpos : 0 < ns.length := by
      cases ns with
      | nil => contradiction
      | cons a as => simp
    rw [List.getD_eq_getElem _ _ (Nat.mod_lt _ hpos)]
    exact List.getElem_mem _

theorem outOfRange_eq_none {pick : Nat} {fields : List (Nat × Nat)} :
    outOfRange pick fields = none ↔ ∀ p ∈ fields, p.1 ≤ p.2 := by
  simp only [outOfRange, reportOne_eq_none, List.map_eq_nil_iff, List.filter_eq_nil_iff,
    decide_eq_true_eq, Nat.not_lt]

/-- A reported operand is the code of a field and exceeds the field's largest value (D38). -/
theorem outOfRange_eq_some {pick : Nat} {fields : List (Nat × Nat)} {n : Nat}
    (h : outOfRange pick fields = some n) :
    ∃ p ∈ fields, p.2 < p.1 ∧ p.1 = n := by
  obtain ⟨p, hp, rfl⟩ := List.mem_map.mp (reportOne_mem h)
  obtain ⟨hm, hlt⟩ := List.mem_filter.mp hp
  exact ⟨p, hm, by simpa using hlt, rfl⟩

end Sys2Proof.Machine
end

