-- ==== Sys2Proof/Laws/PerInstr.lean ====
section
/-! SUPPORT. Statements for all operations, one lemma per constructor.
`EncodedLength`: a command frame has the length R63 gives the operation. -/

namespace Sys2Proof.Laws

/-- The command frame of the operation, if it has one, is as long as the operation's write (R59, R60, R63),
and an operation that writes nothing has none. -/
def EncodedLength.Statement (i : Instr) : Prop :=
  ∀ c : Config, (encode c i).map List.length = if bytesWritten i = 0 then none else some (bytesWritten i)

theorem EncodedLength.pwrcyc : EncodedLength.Statement .pwrcyc := fun _ => rfl
theorem EncodedLength.startcm : EncodedLength.Statement .startcm := fun _ => rfl
theorem EncodedLength.startnom : EncodedLength.Statement .startnom := fun _ => rfl
theorem EncodedLength.rdreg (r : Nat) : EncodedLength.Statement (.rdreg r) := fun _ => rfl
theorem EncodedLength.wrreg (r v : Nat) : EncodedLength.Statement (.wrreg r v) := fun _ => rfl
theorem EncodedLength.rdsample : EncodedLength.Statement .rdsample := fun _ => rfl
theorem EncodedLength.sleep (t : Nat) : EncodedLength.Statement (.sleep t) := fun _ => rfl
theorem EncodedLength.setaddr (a : Nat) : EncodedLength.Statement (.setaddr a) := fun _ => rfl
theorem EncodedLength.encCfg1 (rec : ZmdiConfig1Codes) : EncodedLength.Statement (.encCfg1 rec) :=
  fun _ => rfl
theorem EncodedLength.decCfg1 (v : Word) : EncodedLength.Statement (.decCfg1 v) := fun _ => rfl
theorem EncodedLength.encCfg2 (rec : ZmdiConfig2Codes) : EncodedLength.Statement (.encCfg2 rec) :=
  fun _ => rfl
theorem EncodedLength.decCfg2 (v : Word) : EncodedLength.Statement (.decCfg2 v) := fun _ => rfl
theorem EncodedLength.encBridge (rec : BridgeConfigCodes) : EncodedLength.Statement (.encBridge rec) :=
  fun _ => rfl
theorem EncodedLength.decBridge (v : Word) : EncodedLength.Statement (.decBridge v) := fun _ => rfl
theorem EncodedLength.decFactid (c0 c1 c2 : Word) : EncodedLength.Statement (.decFactid c0 c1 c2) :=
  fun _ => rfl
theorem EncodedLength.encGain (g : BitVec 32) : EncodedLength.Statement (.encGain g) := fun _ => rfl
theorem EncodedLength.decGain (v : Word) : EncodedLength.Statement (.decGain v) := fun _ => rfl

end Sys2Proof.Laws
end

