-- ==== Sys2Proof/Machine/Assembler.lean ====
section
/-! DEFINITION. The assembler syntax of R81: one operation a line, operands separated by commas, numbers as
in R14, register indices by number or parameter name, times in `us` or `ms`, records in braces, `;` starts a
comment. It reads lists of characters. Log 9 says what R81 leaves open. -/

namespace Sys2Proof.Machine

/-- What one line holds: nothing, an operation, or one of the two pseudo-operations without a function
operand (R80). -/
inductive Line where
  | empty
  | op (i : Instr)
  | enterCm
  | rdFactId
deriving DecidableEq, Repr

/-- Why a line is refused. -/
inductive AsmError where
  | unknownMnemonic
  | badOperands
deriving DecidableEq, Repr

/-! Characters and pieces. -/

def isSpace (c : Char) : Bool := c == ' ' || c == '\t' || c == '\r'

def openBrace : Char := Char.ofNat 123

def closeBrace : Char := Char.ofNat 125

/-- Without the blanks at both ends. -/
def trim (cs : List Char) : List Char := ((cs.dropWhile isSpace).reverse.dropWhile isSpace).reverse

/-- Cut at every `sep` outside braces; `depth` counts open braces and `piece` holds the current piece in
reverse. -/
def cutAt (sep : Char) (depth : Nat) (piece : List Char) : List Char → List (List Char)
  | [] => [piece.reverse]
  | c :: cs =>
    if c == sep && depth == 0 then piece.reverse :: cutAt sep 0 [] cs
    else if c == openBrace then cutAt sep (depth + 1) (c :: piece) cs
    else if c == closeBrace then cutAt sep (depth - 1) (c :: piece) cs
    else cutAt sep depth (c :: piece) cs

/-- The pieces between commas; none where there is nothing. -/
def operandsOf (cs : List Char) : List (List Char) :=
  if (trim cs).isEmpty then [] else (cutAt ',' 0 [] cs).map trim

/-! Numbers (R14). -/

def digitVal (c : Char) : Nat :=
  if '0' ≤ c ∧ c ≤ '9' then c.toNat - 48
  else if 'a' ≤ c ∧ c ≤ 'f' then c.toNat - 87
  else if 'A' ≤ c ∧ c ≤ 'F' then c.toNat - 55
  else 99

/-- A non-empty row of digits of a base. -/
def digits (base : Nat) (cs : List Char) : Option Nat :=
  if cs.isEmpty || cs.any (fun c => decide (base ≤ digitVal c)) then none
  else some (cs.foldl (fun n c => base * n + digitVal c) 0)

/-- `0x` hexadecimal, `0b` binary, otherwise decimal. -/
def number : List Char → Option Nat
  | '0' :: 'x' :: cs => digits 16 cs
  | '0' :: 'b' :: cs => digits 2 cs
  | cs => digits 10 cs

/-- A number of 16 bits, or the parameter `FACTORY_OFFSET_VALUE` (R10). -/
def value (c : Config) (cs : List Char) : Option Nat :=
  if cs = "FACTORY_OFFSET_VALUE".toList then some c.factoryOffsetValue.toNat else number cs

/-- An operand of exactly 16 bits. -/
def word (cs : List Char) : Option Word :=
  match number cs with
  | some n => if n ≤ 0xFFFF then some (BitVec.ofNat 16 n) else none
  | none => none

/-- The register-role parameters R81 names. -/
def roleIndex (c : Config) (name : List Char) : Option Nat :=
  if name = "REG_CONFIG1".toList then some c.regConfig1
  else if name = "REG_CONFIG2".toList then some c.regConfig2
  else if name = "REG_BRIDGE".toList then some c.regBridge
  else if name = "REG_GAIN".toList then some c.regGain
  else if name = "REG_CUST_ID0".toList then some c.regCustId0
  else if name = "REG_OFFSET".toList then some c.regOffset
  else none

/-- A register index: a number, or a parameter name, optionally `+ n`. -/
def index (c : Config) (cs : List Char) : Option Nat :=
  match (cutAt '+' 0 [] cs).map trim with
  | [a] =>
    match number a with
    | some n => some n
    | none => roleIndex c a
  | [a, b] =>
    match roleIndex c a, number b with
    | some m, some n => some (m + n)
    | _, _ => none
  | _ => none

/-- A time in µs: a number with the unit `us`, `ms` (R81) or `s` (95_test_vectors.md A-3), or without a
unit in µs (95_test_vectors.md A-5; log 9). -/
def time (cs : List Char) : Option Nat :=
  match cs.reverse with
  | 's' :: 'u' :: ds => number (trim ds.reverse)
  | 's' :: 'm' :: ds => (number (trim ds.reverse)).map (· * 1000)
  | 's' :: ds => (number (trim ds.reverse)).map (· * 1000000)
  | _ => number cs

/-! The gain operand: a decimal number that binary32 represents exactly (log 9). -/

/-- The 31 magnitude bits of n / d in binary32, if it is exactly representable. -/
def binary32Bits (n d : Nat) : Option Nat :=
  if n * 2 ^ 149 % d = 0 ∧ n * 2 ^ 149 / d < 2 ^ 23 then some (n * 2 ^ 149 / d)
  else
    match (List.range 255).find? fun e =>
        decide (0 < e ∧ n * 2 ^ 150 % (d * 2 ^ e) = 0 ∧
          2 ^ 23 ≤ n * 2 ^ 150 / (d * 2 ^ e) ∧ n * 2 ^ 150 / (d * 2 ^ e) < 2 ^ 24) with
    | some e => some (e * 2 ^ 23 + (n * 2 ^ 150 / (d * 2 ^ e) - 2 ^ 23))
    | none => none

/-- An unsigned decimal `digits` or `digits.digits`, as a fraction. -/
def decimalFraction (cs : List Char) : Option (Nat × Nat) :=
  match cutAt '.' 0 [] cs with
  | [a] => (number a).map fun n => (n, 1)
  | [a, b] =>
    match digits 10 a, digits 10 b with
    | some m, some n => some (m * 10 ^ b.length + n, 10 ^ b.length)
    | _, _ => none
  | _ => none

/-- A gain operand, with an optional minus sign. -/
def gainOperand : List Char → Option (BitVec 32)
  | '-' :: cs =>
    match decimalFraction (trim cs) with
    | some (n, d) => (binary32Bits n d).map fun b => BitVec.ofNat 32 (2 ^ 31 + b)
    | none => none
  | cs =>
    match decimalFraction cs with
    | some (n, d) => (binary32Bits n d).map fun b => BitVec.ofNat 32 b
    | none => none

/-! Record operands (R74 to R76). A field that is not listed takes code 0 or the first enumerator, as
95_test_vectors.md section L2.6 writes records (log 9). -/

/-- `name = text` pairs of a record in braces. -/
def recordPairs (cs : List Char) : Option (List (List Char × List Char)) :=
  match cs, cs.reverse with
  | o :: inner, c :: _ =>
    if o = openBrace ∧ c = closeBrace then
      (operandsOf inner.dropLast).mapM fun piece =>
        match (cutAt '=' 0 [] piece).map trim with
        | [n, v] => some (n, v)
        | _ => none
    else none
  | _, _ => none

/-- The numeric code of a field: a number, or the place of an enumerator's name in the field's list. -/
def fieldCode (enumerators : List String) (cs : List Char) : Option Nat :=
  match number cs with
  | some n => some n
  | none => (enumerators.map String.toList).findIdx? (· = cs)

def flagNames : List String := ["false", "true"]

def polarityNames : List String := ["Positive", "Negative"]

def config1Field (name value : List Char) (r : ZmdiConfig1Codes) : Option ZmdiConfig1Codes :=
  if name = "clockSpeed".toList then
    (fieldCode ["MHz4", "MHz1"] value).map fun n => { r with clockSpeed := n }
  else if name = "commType".toList then
    (fieldCode ["NativeBus", "AltBus"] value).map fun n => { r with commType := n }
  else if name = "sleepMode".toList then
    (fieldCode ["Continuous", "OnDemand"] value).map fun n => { r with sleepMode := n }
  else if name = "updateRate".toList then
    (fieldCode ["Fastest", "Faster", "Slower", "Slowest"] value).map fun n => { r with updateRate := n }
  else if name = "curveShape".toList then
    (fieldCode ["Parabolic", "SShaped"] value).map fun n => { r with curveShape := n }
  else if name = "polTco".toList then (fieldCode polarityNames value).map fun n => { r with polTco := n }
  else if name = "polTcg".toList then (fieldCode polarityNames value).map fun n => { r with polTcg := n }
  else if name = "polSotBridge".toList then
    (fieldCode polarityNames value).map fun n => { r with polSotBridge := n }
  else if name = "polSotOffsetTemp".toList then
    (fieldCode polarityNames value).map fun n => { r with polSotOffsetTemp := n }
  else if name = "polSotGainTemp".toList then
    (fieldCode polarityNames value).map fun n => { r with polSotGainTemp := n }
  else if name = "polSotLinTemp".toList then
    (fieldCode polarityNames value).map fun n => { r with polSotLinTemp := n }
  else none

def lockName (cs : List Char) : Option Lock :=
  if cs = "Locked".toList then some .locked
  else if cs = "Unlocked".toList then some .unlocked
  else none

def config2Field (name value : List Char) (r : ZmdiConfig2Codes) : Option ZmdiConfig2Codes :=
  if name = "altBusPolarity".toList then
    (fieldCode ["Negative", "Positive"] value).map fun n => { r with altBusPolarity := n }
  else if name = "connCheck".toList then
    (fieldCode flagNames value).map fun n => { r with connCheck := n }
  else if name = "shortCheck".toList then
    (fieldCode flagNames value).map fun n => { r with shortCheck := n }
  else if name = "address".toList then (number value).map fun n => { r with address := n }
  else if name = "addrLock".toList then (lockName value).map fun l => { r with addrLock := l }
  else if name = "eepromLock".toList then (lockName value).map fun l => { r with eepromLock := l }
  else none

def gainName (cs : List Char) : Option PreampGain :=
  if cs = "G1_5".toList then some .g1_5
  else if cs = "G3".toList then some .g3
  else if cs = "G6".toList then some .g6
  else if cs = "G12".toList then some .g12
  else if cs = "G24".toList then some .g24
  else if cs = "G48".toList then some .g48
  else if cs = "G96".toList then some .g96
  else if cs = "G192".toList then some .g192
  else none

def muxName (cs : List Char) : Option MuxMode :=
  if cs = "FullBridge".toList then some .fullBridge
  else if cs = "HalfBridge".toList then some .halfBridge
  else if cs = "Invalid(0)".toList then some (.invalid 0)
  else if cs = "Invalid(1)".toList then some (.invalid 1)
  else none

def bridgeField (name value : List Char) (r : BridgeConfigCodes) : Option BridgeConfigCodes :=
  if name = "preampOffset".toList then (number value).map fun n => { r with preampOffset := n }
  else if name = "preampGain".toList then (gainName value).map fun g => { r with preampGain := g }
  else if name = "polarity".toList then (number value).map fun n => { r with polarity := n }
  else if name = "longIntegration".toList then
    (fieldCode flagNames value).map fun n => { r with longIntegration := n }
  else if name = "bSink".toList then (fieldCode flagNames value).map fun n => { r with bSink := n }
  else if name = "mux".toList then (muxName value).map fun m => { r with mux := m }
  else if name = "disableNulling".toList then
    (fieldCode flagNames value).map fun n => { r with disableNulling := n }
  else none

def noConfig1 : ZmdiConfig1Codes := ⟨0, 0, 0, 0, 0, 0, 0, 0, 0, 0, 0⟩

def noConfig2 : ZmdiConfig2Codes := ⟨0, 0, 0, 0, .unlocked, .unlocked⟩

def noBridge : BridgeConfigCodes := ⟨0, .g1_5, 0, 0, 0, .fullBridge, 0⟩

/-- Read a record by setting its listed fields over a first record. -/
def record {α : Type} (set : List Char → List Char → α → Option α) (first : α) (cs : List Char) : Option α :=
  match recordPairs cs with
  | some ps => ps.foldlM (fun r p => set p.1 p.2 r) first
  | none => none

/-! Lines. -/

/-- The operation of a mnemonic and its operands (R79); the outer `none` is an unknown mnemonic. -/
def operation (c : Config) (name : List Char) (ops : List (List Char)) : Option (Option Line) :=
  if name = "PWRCYC".toList then some (if ops = [] then some (.op .pwrcyc) else none)
  else if name = "STARTCM".toList then some (if ops = [] then some (.op .startcm) else none)
  else if name = "STARTNOM".toList then some (if ops = [] then some (.op .startnom) else none)
  else if name = "RDSAMPLE".toList then some (if ops = [] then some (.op .rdsample) else none)
  else if name = "ENTERCM".toList then some (if ops = [] then some .enterCm else none)
  else if name = "RDFACTID".toList then some (if ops = [] then some .rdFactId else none)
  else if name = "RDREG".toList then some (match ops with
    | [r] => (index c r).map fun r => .op (.rdreg r)
    | _ => none)
  else if name = "WRREG".toList then some (match ops with
    | [r, v] => (index c r).bind fun r => (value c v).map fun v => .op (.wrreg r v)
    | _ => none)
  else if name = "SLEEP".toList then some (match ops with
    | [t] => (time t).map fun t => .op (.sleep t)
    | _ => none)
  else if name = "SETADDR".toList then some (match ops with
    | [a] => (number a).map fun a => .op (.setaddr a)
    | _ => none)
  else if name = "ENC_CFG1".toList then some (match ops with
    | [r] => (record config1Field noConfig1 r).map fun r => .op (.encCfg1 r)
    | _ => none)
  else if name = "DEC_CFG1".toList then some (match ops with
    | [v] => (word v).map fun v => .op (.decCfg1 v)
    | _ => none)
  else if name = "ENC_CFG2".toList then some (match ops with
    | [r] => (record config2Field noConfig2 r).map fun r => .op (.encCfg2 r)
    | _ => none)
  else if name = "DEC_CFG2".toList then some (match ops with
    | [v] => (word v).map fun v => .op (.decCfg2 v)
    | _ => none)
  else if name = "ENC_BRIDGE".toList then some (match ops with
    | [r] => (record bridgeField noBridge r).map fun r => .op (.encBridge r)
    | _ => none)
  else if name = "DEC_BRIDGE".toList then some (match ops with
    | [v] => (word v).map fun v => .op (.decBridge v)
    | _ => none)
  else if name = "DEC_FACTID".toList then some (match ops with
    | [a, b, d] => (word a).bind fun a => (word b).bind fun b => (word d).map fun d =>
        .op (.decFactid a b d)
    | _ => none)
  else if name = "ENC_GAIN".toList then some (match ops with
    | [g] => (gainOperand g).map fun g => .op (.encGain g)
    | _ => none)
  else if name = "DEC_GAIN".toList then some (match ops with
    | [v] => (word v).map fun v => .op (.decGain v)
    | _ => none)
  else none

/-- One line of assembler text (R81). -/
def assembleLine (c : Config) (cs : List Char) : Except AsmError Line :=
  let body := trim (cs.takeWhile (· ≠ ';'))
  if body = [] then .ok .empty
  else
    match operation c (body.takeWhile fun x => !isSpace x)
        (operandsOf (body.dropWhile fun x => !isSpace x)) with
    | none => .error .unknownMnemonic
    | some none => .error .badOperands
    | some (some l) => .ok l

/-- The lines of a text; `piece` holds the current line in reverse. -/
def linesOf (piece : List Char) : List Char → List (List Char)
  | [] => [piece.reverse]
  | c :: cs => if c == '\n' then piece.reverse :: linesOf [] cs else linesOf (c :: piece) cs

/-- A program: its lines in order, or the error of a refused line (R21, R81). -/
def assemble (c : Config) (cs : List Char) : Except AsmError (List Line) :=
  (linesOf [] cs).mapM (assembleLine c)

end Sys2Proof.Machine
end

