-- ==== Sys2Proof/Tests/Slice0.lean ====
section
/-! SUPPORT. Tests on single operations. Expected results are those of spec/95_test_vectors.md, whose row
each test names, unless it says otherwise. `decide +kernel` stands where a rational number or an assembler
text is evaluated. -/

open Sys2Proof Sys2Proof.Machine

namespace Sys2Proof.Tests

-- One kernel evaluation at a time: in parallel they outgrow the memory a check allows.
set_option Elab.async false

/-! ## Helpers -/

/-- The example parameters of 95_test_vectors.md section L3. -/
def exampleCfg : Config := { Config.thisHardware with
  initialAddress := 0x50, pwrReset := some .high, regCustId0 := 0, regOffset := 3, regGain := 4,
  regConfig1 := 0x10, regConfig2 := 0x11, regBridge := 0x12, factoryOffsetValue := 0x0100 }

/-- A block at bus address 0x50 in tracked state `p`, with settle `d` owed and the replies `rs` to come. -/
def at_ (p : ProtoState) (d : Nat) (rs : List TransportReply) : State := { State.reset with
  ps := p, busAddr := 0x50, pwr := some .high, settleRemaining := d, cfg := exampleCfg, answers := rs }

/-- The same, its address already changed to 0x28. -/
def moved (p : ProtoState) (rs : List TransportReply) : State :=
  { at_ p 0 rs with busAddr := 0x28, addrChanged := true }

/-- The same block under `MODE_GUARD = passthrough`. -/
def pass (s : State) : State := { s with cfg := { exampleCfg with modeGuard := .passthrough } }

/-- The last response of an outcome. -/
def last (r : Result) : Option Response :=
  match r with
  | .next t => t.responses.getLast?
  | _ => none

/-- The result value of an outcome that ended with `OK`. -/
def okValue (r : Result) : Option Value :=
  match last r with
  | some ⟨none, v⟩ => v
  | _ => none

/-- The error of an outcome. -/
def errorOf (r : Result) : Option Cause := (last r).bind Response.error

/-- The events of an outcome. -/
def eventsOf (r : Result) : List Event :=
  match r with
  | .next t => t.history
  | _ => []

/-- Tracked state, address, changed bit, settle and fault bit of an outcome. -/
def block (r : Result) : Option (ProtoState × BusAddr × Bool × Nat × Bool) :=
  match r with
  | .next t => some (t.ps, t.busAddr, t.addrChanged, t.settleRemaining, t.hazardFault)
  | _ => none

def acked : TransportReply := .done []

/-! ## Well-formedness: one ill-formed operand for each check -/

theorem test_wellFormed_rdreg : Instr.wellFormed exampleCfg (.rdreg 0x14) = false := by decide
theorem test_wellFormed_wrreg_index : Instr.wellFormed exampleCfg (.wrreg 0x14 0) = false := by decide
theorem test_wellFormed_wrreg_value : Instr.wellFormed exampleCfg (.wrreg 0x13 0x10000) = false := by decide
theorem test_wellFormed_setaddr : Instr.wellFormed exampleCfg (.setaddr 0x80) = false := by decide

/-- Each of the eleven fields alone out of range. -/
theorem test_wellFormed_config1 :
    ([⟨2, 0, 0, 0, 0, 0, 0, 0, 0, 0, 0⟩, ⟨0, 2, 0, 0, 0, 0, 0, 0, 0, 0, 0⟩,
      ⟨0, 0, 2, 0, 0, 0, 0, 0, 0, 0, 0⟩, ⟨0, 0, 0, 4, 0, 0, 0, 0, 0, 0, 0⟩,
      ⟨0, 0, 0, 0, 2, 0, 0, 0, 0, 0, 0⟩, ⟨0, 0, 0, 0, 0, 2, 0, 0, 0, 0, 0⟩,
      ⟨0, 0, 0, 0, 0, 0, 2, 0, 0, 0, 0⟩, ⟨0, 0, 0, 0, 0, 0, 0, 2, 0, 0, 0⟩,
      ⟨0, 0, 0, 0, 0, 0, 0, 0, 2, 0, 0⟩, ⟨0, 0, 0, 0, 0, 0, 0, 0, 0, 2, 0⟩,
      ⟨0, 0, 0, 0, 0, 0, 0, 0, 0, 0, 2⟩] : List ZmdiConfig1Codes).all (fun r => !r.wellFormed) = true := by
  decide

theorem test_wellFormed_config2 :
    ([⟨2, 0, 0, 0, .locked, .locked⟩, ⟨0, 2, 0, 0, .locked, .locked⟩, ⟨0, 0, 2, 0, .locked, .locked⟩,
      ⟨0, 0, 0, 0x80, .locked, .locked⟩] : List ZmdiConfig2Codes).all (fun r => !r.wellFormed) = true := by
  decide

theorem test_wellFormed_bridge :
    ([⟨16, .g3, 0, 0, 0, .fullBridge, 0⟩, ⟨0, .g3, 2, 0, 0, .fullBridge, 0⟩,
      ⟨0, .g3, 0, 2, 0, .fullBridge, 0⟩, ⟨0, .g3, 0, 0, 2, .fullBridge, 0⟩,
      ⟨0, .g3, 0, 0, 0, .fullBridge, 2⟩] : List BridgeConfigCodes).all (fun r => !r.wellFormed) = true := by
  decide

/-- Operands at the ends of their ranges are well formed. -/
theorem test_wellFormed_bounds :
    [Instr.rdreg 0x13, .wrreg 0x13 0xFFFF, .setaddr 0x7F, .encCfg1 ⟨1, 1, 1, 3, 1, 1, 1, 1, 1, 1, 1⟩,
      .encCfg2 ⟨1, 1, 1, 0x7F, .locked, .locked⟩, .encBridge ⟨15, .g192, 1, 1, 1, .invalid 1, 1⟩].all
      (Instr.wellFormed exampleCfg) = true := by decide

/-! ## Decoding: words written from R57, R59 and R60 -/

/-- `hi3 = 000`, `lo5` = the index. -/
theorem test_decode_rdreg : decodeTableWord 8 0b00010011 = some (.rdreg 0x13) := by decide
/-- `hi3 = 010`, `lo5` = the index; the data bytes are high byte first (W-1). -/
theorem test_decode_wrreg :
    decode exampleCfg [0b01000101, 0xBE, 0xEF] = .ok (.wrreg 0x05 0xBEEF, []) := by rfl
theorem test_decode_startcm : decodeTableWord 8 0b10100000 = some .startcm := by decide
theorem test_decode_startnom : decodeTableWord 8 0b10000000 = some .startnom := by decide
/-- R58: the bytes next to the ranges and next to the two single codes are no commands. -/
theorem test_decode_rejects : [0x14, 0x3F, 0x54, 0x7F, 0x81, 0x9F, 0xA1, 0xFF].all
    (fun b => decide (decodeTableWord 8 b = none)) = true := by decide
theorem test_decode_short_write :
    (match decode exampleCfg [0x45, 0xBE] with | .ok _ => false | .error e => decide (e = .shortFrame 0x45))
      = true := by decide

/-! ## Steps: the four operations with a command frame, as table words -/

/-- P1 pc 1: the frame reaches the bus and the block is in command mode. -/
theorem test_step_startcm :
    eventsOf (Sys2Proof.Machine.step ((at_ .poweredIdle 0 [acked]).withFetchWord 8 0xA0)) =
      [.write 0x50 [0xA0] .ok, .wait 100] := by decide
theorem test_step_startnom :
    block (Sys2Proof.Machine.step ((at_ .commandMode 0 [acked]).withFetchWord 8 0x80)) =
      some (.normalOperation, 0x50, false, 0, false) := by decide
/-- R-1. -/
theorem test_step_rdreg :
    okValue (Sys2Proof.Machine.step
      ((at_ .commandMode 0 [acked, .done [0x5A, 0x12, 0x34]]).withFetchWord 8 0x00)) =
      some (.word 0x1234) := by decide +kernel
/-- A table word of 8 bits has data bytes of zeros: W-2. -/
theorem test_step_wrreg :
    eventsOf (Sys2Proof.Machine.step ((at_ .commandMode 0 [acked]).withFetchWord 8 0x40)) =
      [.write 0x50 [0x40, 0x00, 0x00] .ok] := by decide
/-- From reset the first request is performed: P2 pc 0, the mode guard refuses. -/
theorem test_step_from_reset :
    errorOf (Sys2Proof.Machine.step (State.reset.withFetchWord 8 0x10)) = some (.wrongState .unknown) := by
  decide
theorem test_step_no_command :
    (match Sys2Proof.Machine.step (State.reset.withFetchWord 8 0x14) with
      | .refused r => decide (r = .notACommandFrame (.notACommand 0x14))
      | _ => false) = true := by decide

/-! ## Bus operations -/

/-- T1. -/
theorem test_pwrcyc : eventsOf (exec .pwrcyc (at_ .unknown 0 [])) =
    [.power .low, .wait 500, .power .high, .wait 500] := by decide
/-- T13: the hazard. -/
theorem test_pwrcyc_hazard : block (exec .pwrcyc (at_ .commandMode 150000 [])) =
    some (.poweredIdle, 0x50, false, 0, true) := by decide
/-- T3: no wait after a failed send. -/
theorem test_startcm_fails : eventsOf (exec .startcm (at_ .poweredIdle 0 [.failed])) =
    [.write 0x50 [0xA0] .fail] := by decide
/-- T11. -/
theorem test_startcm_passthrough : block (exec .startcm (pass (at_ .normalOperation 0 [acked]))) =
    some (.unknown, 0x50, false, 0, false) := by decide
/-- T14. -/
theorem test_startnom_hazard : block (exec .startnom (at_ .commandMode 40000 [acked])) =
    some (.normalOperation, 0x50, false, 40000, true) := by decide
/-- T8: the info is the tracked state, code 2. -/
theorem test_startnom_refused : (last (exec .startnom (at_ .poweredIdle 0 []))).map Response.error =
    some (some (.wrongState .poweredIdle)) ∧ ProtoState.poweredIdle.code = 2 := by decide
/-- R-10: a short read fails. -/
theorem test_rdreg_short : eventsOf (exec (.rdreg 1) (at_ .commandMode 0 [acked, .done [0x5A, 0x01]])) =
    [.write 0x50 [0x01] .ok, .wait 100, .read 0x50 3 .fail] := by decide
/-- R-11. -/
theorem test_rdreg_status :
    errorOf (exec (.rdreg 1) (at_ .commandMode 0 [acked, .done [0xA5, 0x01, 0x02]])) =
      some (.badStatus 0xA5) := by decide
/-- W-8: the settle starts again and the fault is recorded. -/
theorem test_wrreg_hazard : block (exec (.wrreg 6 2) (at_ .commandMode 1 [acked])) =
    some (.commandMode, 0x50, false, 150000, true) := by decide
/-- W-6. -/
theorem test_wrreg_value : errorOf (exec (.wrreg 5 0x10000) (at_ .commandMode 0 [])) =
    some (.fieldRange 0x10000) := by decide
/-- S-5: the two status bits are discarded. -/
theorem test_rdsample : okValue (exec .rdsample (moved .normalOperation [.done [0x5A, 0x01]])) =
    some (.word 0x1A01) := by decide +kernel
/-- S-7. -/
theorem test_rdsample_fails : errorOf (exec .rdsample (moved .normalOperation [.failed])) =
    some .readFailed := by decide
/-- A-3: the settle does not go below 0. -/
theorem test_sleep_settle : block (exec (.sleep 1000000) (at_ .commandMode 50000 [])) =
    some (.commandMode, 0x50, false, 0, false) := by decide
/-- A-4. -/
theorem test_sleep_window : block (exec (.sleep 1) (at_ .poweredIdle 0 [])) =
    some (.unknown, 0x50, false, 0, false) := by decide
/-- A-6. -/
theorem test_setaddr : block (exec (.setaddr 0x28) (at_ .unknown 0 [])) =
    some (.unknown, 0x28, true, 0, false) := by decide
/-- A-7. -/
theorem test_setaddr_again : errorOf (exec (.setaddr 0x29) (moved .unknown [])) =
    some (.addressAlreadyChanged 0x28) := by decide

/-! ## Codec operations (L1, L2.6 to L2.8) -/

theorem test_encCfg1 : okValue (exec (.encCfg1 ⟨1, 0, 1, 2, 1, 1, 0, 0, 0, 0, 0⟩) State.reset) =
    some (.word 0x06A9) := by decide +kernel
theorem test_encCfg1_range : errorOf (exec (.encCfg1 ⟨0, 0, 0, 4, 0, 0, 0, 0, 0, 0, 0⟩) State.reset) =
    some (.fieldRange 4) := by decide
theorem test_decCfg1 : okValue (exec (.decCfg1 0x06A9) State.reset) = some (.config1
    ⟨.mhz1, .nativeBus, .onDemand, .slower, .sShaped, .negative, .positive, .positive, .positive, .positive,
      .positive⟩) := by decide
theorem test_encCfg2 : okValue (exec (.encCfg2 ⟨0, 1, 1, 0x28, .locked, .unlocked⟩) State.reset) =
    some (.word 0x0D46) := by decide +kernel
theorem test_encCfg2_range : errorOf (exec (.encCfg2 ⟨0, 0, 0, 0x80, .locked, .unlocked⟩) State.reset) =
    some (.fieldRange 0x80) := by decide
theorem test_decCfg2 : okValue (exec (.decCfg2 0x0D46) State.reset) =
    some (.config2 ⟨.negative, true, true, 0x28, .locked, .unlocked⟩) := by decide
/-- Lock fields 0b111. -/
theorem test_decCfg2_locks : okValue (exec (.decCfg2 0xFFFF) State.reset) =
    some (.config2 ⟨.positive, true, true, 0x7F, .unlocked, .unlocked⟩) := by decide
theorem test_encBridge :
    okValue (exec (.encBridge ⟨1, .g24, 0, 1, 1, .fullBridge, 0⟩) State.reset) = some (.word 0x0B21) := by
  decide +kernel
/-- P3 pc 4. -/
theorem test_encBridge_invalid :
    last (exec (.encBridge ⟨0, .g1_5, 0, 0, 0, .invalid 0, 0⟩) State.reset) =
      some ⟨some (.invalidMux 0), some (.word 0x0000)⟩ := by decide +kernel
theorem test_decBridge : okValue (exec (.decBridge 0x08C0) State.reset) =
    some (.bridge ⟨0, .g3, 1, false, false, .fullBridge, false⟩) := by decide
/-- L1-4. -/
theorem test_decBridge_invalid : last (exec (.decBridge 0x0000) State.reset) =
    some ⟨some (.invalidMux 0), some (.bridge ⟨0, .g1_5, 0, false, false, .invalid 0, false⟩)⟩ := by decide
/-- L1-6. -/
theorem test_decFactid : okValue (exec (.decFactid 0x1234 0x0056 0x0078) State.reset) =
    some (.factory ⟨0x3C0, 0x12, 0x34, 0x56⟩) := by decide
theorem test_decFactid_wide : okValue (exec (.decFactid 0xE0FF 0x0000 0x2000) State.reset) =
    some (.factory ⟨0x10007, 0x00, 0x7F, 0x0000⟩) := by decide
/-- 8193/2048, a tie in the coarse range. -/
theorem test_encGain_tie : okValue (exec (.encGain 0x40800400) State.reset) = some (.word 0x9001) := by
  decide +kernel
/-- L1-7: 32.0. -/
theorem test_encGain_range : last (exec (.encGain 0x42000000) State.reset) =
    some ⟨some (.gainUnencodable 0x42000000), some (.word 0x0000)⟩ := by decide +kernel
theorem test_decGain_coarse : okValue (exec (.decGain 0xFFFF) State.reset) =
    some (.gain (32767 / 1024)) := by decide +kernel
theorem test_decGain_fine : okValue (exec (.decGain 0x4000) State.reset) = some (.gain 2) := by decide +kernel

/-! ## Assembler lines (R81; lines of the programs of L3) -/

/-- P1 pc 5. -/
theorem test_assemble_role : assembleLine exampleCfg "RDREG REG_CUST_ID0+2 ; step 2".toList =
    .ok (.op (.rdreg 2)) := by rfl
/-- P1 pc 23. -/
theorem test_assemble_offset : assembleLine exampleCfg "WRREG REG_OFFSET, FACTORY_OFFSET_VALUE".toList =
    .ok (.op (.wrreg 3 0x0100)) := by rfl
/-- P1 pc 2. -/
theorem test_assemble_time : assembleLine exampleCfg "SLEEP 150ms".toList = .ok (.op (.sleep 150000)) := by
  rfl

/-! ## Witnesses: the hypotheses of every obligation that has some, for each of its clauses, at boundary
values -/

/-- Command mode, with a write acknowledged and a register reply of value 0xFFFF to come. -/
def reading : State := at_ .commandMode 0 [acked, .done [0x5A, 0xFF, 0xFF], acked]

theorem witness_Startcm :
    ((at_ .unknown 0 []).cfg.modeGuard = .enforce ∧ (at_ .unknown 0 []).ps ≠ .poweredIdle) ∧
    ((at_ .poweredIdle 0 [.failed]).ps = .poweredIdle ∧ (at_ .poweredIdle 0 [.failed]).replyAt 0 = .failed) ∧
    ((at_ .poweredIdle 0 [acked]).ps = .poweredIdle ∧ (at_ .poweredIdle 0 [acked]).replyAt 0 = .done []) ∧
    ((pass (at_ .unknown 0 [acked])).cfg.modeGuard = .passthrough ∧
      (pass (at_ .unknown 0 [acked])).replyAt 0 = .done []) := by decide

theorem witness_Startnom :
    ((at_ .poweredIdle 0 []).cfg.modeGuard = .enforce ∧ (at_ .poweredIdle 0 []).ps ≠ .commandMode) ∧
    ((at_ .commandMode 0 [.failed]).ps = .commandMode ∧ (at_ .commandMode 0 [.failed]).replyAt 0 = .failed) ∧
    ((at_ .commandMode 0 [acked]).ps = .commandMode ∧ (at_ .commandMode 0 [acked]).replyAt 0 = .done []) := by
  decide

theorem witness_Rdreg :
    reading.cfg.nreg ≤ 0x14 ∧ 0x13 < reading.cfg.nreg ∧
    ((at_ .normalOperation 0 []).cfg.modeGuard = .enforce ∧ (at_ .normalOperation 0 []).ps ≠ .commandMode) ∧
    (at_ .commandMode 0 [.failed]).replyAt 0 = .failed ∧
    (reading.ps = .commandMode ∧ reading.replyAt 0 = .done [] ∧
      reading.replyAt 1 = .done [reading.cfg.statusOk, 0xFF, 0xFF]) ∧
    ((at_ .commandMode 0 [acked, .failed]).replyAt 1 = .failed ∧
      (at_ .commandMode 0 [acked, .done [0x5A, 0x01]]).replyAt 1 = .done [0x5A, 0x01] ∧
      [(0x5A : Byte), 0x01].length ≠ 3) ∧
    ((at_ .commandMode 0 [acked, .done [0x5B, 0, 0]]).replyAt 1 = .done [0x5B, 0, 0] ∧
      (0x5B : Byte) ≠ exampleCfg.statusOk) := by decide

theorem witness_Wrreg :
    reading.cfg.nreg ≤ 0x14 ∧ 0x13 < reading.cfg.nreg ∧ 0xFFFF < 0x10000 ∧ 0xFFFF ≤ 0xFFFF ∧
    ((at_ .poweredIdle 0 []).cfg.modeGuard = .enforce ∧ (at_ .poweredIdle 0 []).ps ≠ .commandMode) ∧
    ((at_ .commandMode 0 [.failed]).ps = .commandMode ∧ (at_ .commandMode 0 [.failed]).replyAt 0 = .failed) ∧
    (reading.ps = .commandMode ∧ reading.replyAt 0 = .done []) := by decide

theorem witness_Rdsample :
    ((at_ .commandMode 0 []).cfg.modeGuard = .enforce ∧ (at_ .commandMode 0 []).ps ≠ .normalOperation) ∧
    ((moved .normalOperation [.failed]).ps = .normalOperation ∧
      (moved .normalOperation [.failed]).replyAt 0 = .failed) ∧
    ((moved .normalOperation [.done [1]]).replyAt 0 = .done [1] ∧ [(1 : Byte)].length ≠ 2) ∧
    ((moved .normalOperation [.done [0xFF, 0xFF]]).ps = .normalOperation ∧
      (moved .normalOperation [.done [0xFF, 0xFF]]).replyAt 0 = .done [0xFF, 0xFF]) := by decide

theorem witness_Setaddr :
    0x7F < 0x80 ∧ 0x7F ≤ 0x7F ∧
    ((moved .unknown []).cfg.modeGuard = .enforce ∧ (moved .unknown []).addrChanged = true) ∧
    (at_ .unknown 0 []).addrChanged = false ∧ (pass (moved .unknown [])).cfg.modeGuard = .passthrough := by
  decide

theorem witness_EncCfg1 :
    ZmdiConfig1Codes.wellFormed ⟨1, 1, 1, 3, 1, 1, 1, 1, 1, 1, 1⟩ = true ∧
    ZmdiConfig1Codes.wellFormed ⟨0, 0, 0, 4, 0, 0, 0, 0, 0, 0, 2⟩ = false := by decide

theorem witness_EncCfg2 :
    0x7F < (⟨0, 0, 0, 0x80, .locked, .locked⟩ : ZmdiConfig2Codes).address ∧
    ((⟨0, 2, 0, 0x7F, .locked, .locked⟩ : ZmdiConfig2Codes).address ≤ 0x7F ∧
      ZmdiConfig2Codes.wellFormed ⟨0, 2, 0, 0x7F, .locked, .locked⟩ = false) ∧
    ZmdiConfig2Codes.wellFormed ⟨1, 1, 1, 0x7F, .locked, .unlocked⟩ = true := by decide

theorem witness_EncBridge :
    15 < (⟨16, .g3, 0, 0, 0, .fullBridge, 0⟩ : BridgeConfigCodes).preampOffset ∧
    ((⟨15, .g3, 2, 0, 0, .fullBridge, 0⟩ : BridgeConfigCodes).preampOffset ≤ 15 ∧
      BridgeConfigCodes.wellFormed ⟨15, .g3, 2, 0, 0, .fullBridge, 0⟩ = false) ∧
    BridgeConfigCodes.wellFormed ⟨15, .g192, 1, 1, 1, .invalid 1, 1⟩ = true ∧
    BridgeConfigCodes.wellFormed ⟨15, .g192, 1, 1, 1, .fullBridge, 1⟩ = true ∧
    BridgeConfigCodes.wellFormed ⟨0, .g1_5, 0, 0, 0, .halfBridge, 0⟩ = true := by decide

/-- NaN and +∞; −1 and 32; 0 and 65535/16384; 4 and 65535/2048. -/
theorem witness_EncGain :
    binary32 0x7FC00000 = .nan ∧ binary32 0x7F800000 = .infinite false ∧
    binary32 0xBF800000 = .finite (-1) ∧ binary32 0x42000000 = .finite 32 ∧
    binary32 0x80000000 = .finite 0 ∧ binary32 0x407FFF00 = .finite (65535 / 16384) ∧
    ((65535 / 16384 : ℚ) < 4) ∧
    binary32 0x40800000 = .finite 4 ∧ binary32 0x41FFFF00 = .finite (65535 / 2048) ∧
    ((65535 / 2048 : ℚ) < 32) := by decide +kernel

/-- R82: two values that differ in the ignored bits only. -/
theorem witness_EncodedReservedBits :
    ((0x06A9 : Word) &&& 0xFEF8 = 0x07AE &&& 0xFEF8) ∧ ((0xE800 : Word) &&& 0x1FFF = 0x0800 &&& 0x1FFF) ∧
    ZmdiConfig1Codes.wellFormed ⟨1, 1, 1, 3, 1, 1, 1, 1, 1, 1, 1⟩ = true ∧
    (BridgeConfigCodes.wellFormed ⟨15, .g192, 1, 1, 1, .halfBridge, 1⟩ = true ∧
      MuxMode.halfBridge.code = 0b11 ∧ MuxMode.fullBridge.code = 0b10) := by decide

theorem witness_RecordRoundTrips :
    MuxMode.fullBridge = .fullBridge ∧ (0x0800 : Word).getLsbD 11 = true := by decide

/-- Both sides of 32767.5/8192, of 4 and of 32767.5/1024 (R110). -/
theorem witness_GainBounds :
    binary32 0x407FFE00 = .finite (32767 / 8192) ∧ (32767 / 8192 : ℚ) < 32767.5 / 8192 ∧
    binary32 0x407FFF00 = .finite (65535 / 16384) ∧ (32767.5 / 8192 : ℚ) ≤ 65535 / 16384 ∧
    binary32 0x40800000 = .finite 4 ∧ (4 : ℚ) < 32767.5 / 1024 ∧
    binary32 0x41FFFF00 = .finite (65535 / 2048) ∧ (32767.5 / 1024 : ℚ) ≤ 65535 / 2048 := by
  decide +kernel

/-- 4095/1024 = DEC_GAIN 0x8FFF (not canonical), 4 = DEC_GAIN 0x9000, 32767/8192 = DEC_GAIN 0x7FFF. -/
theorem witness_GainReencode :
    (exec (.decGain 0x8FFF) State.reset = .next (State.reset.respond ⟨none, some (.gain (gainValue 0x8FFF))⟩) ∧
      binary32 0x407FF000 = .finite (gainValue 0x8FFF)) ∧
    (exec (.decGain 0x9000) State.reset = .next (State.reset.respond ⟨none, some (.gain (gainValue 0x9000))⟩) ∧
      binary32 0x40800000 = .finite (gainValue 0x9000)) ∧
    binary32 0x407FFE00 = .finite (gainValue 0x7FFF) :=
  ⟨⟨rfl, by decide +kernel⟩, ⟨rfl, by decide +kernel⟩, by decide +kernel⟩

/-- The gain 8193/2048, encoded as 0x9001 (L2.8). -/
theorem witness_GainErrorEverywhere :
    binary32 0x40800400 = .finite (8193 / 2048) ∧ (0 : ℚ) ≤ 8193 / 2048 ∧ (8193 / 2048 : ℚ) < 32 ∧
    exec (.encGain 0x40800400) State.reset = .next (State.reset.respond ⟨none, some (.word 0x9001)⟩) ∧
    exec (.decGain 0x9001) State.reset =
      .next (State.reset.respond ⟨none, some (.gain (gainValue 0x9001))⟩) := by
  refine ⟨by decide +kernel, by decide +kernel, by decide +kernel, ?_, rfl⟩
  show execEncGain _ _ = _
  have h : encodableGain (binary32 0x40800400) = some (8193 / 2048) := by decide +kernel
  have hw : encGainWord (8193 / 2048) = 0x9001 := by decide +kernel
  simp only [execEncGain, h, hw, finish]

theorem witness_Codec : isCodec (.decGain 0) = true := by decide

/-- An operation's outcome, its new events and its response: a register read from a state whose fault bit
is clear and which owes settle (BusTraffic, HazardFault, FrameLengths, EveryFrame, Settle, HistoryAndResponses,
CompletedOperations, OnlyPwrcyc). -/
theorem witness_Outcome : ∃ (t : State) (r : Response) (new : List Event),
    exec (.rdreg 0x13) (at_ .commandMode 1 [acked, .done [0x5A, 0, 0]]) = .next t ∧
    t.history = (at_ .commandMode 1 [acked, .done [0x5A, 0, 0]]).history ++ new ∧
    t.responses = (at_ .commandMode 1 [acked, .done [0x5A, 0, 0]]).responses ++ [r] ∧ r.error = none ∧
    [0x13] ∈ new.filterMap Event.written ∧ exampleCfg.hasSourceCodes = true ∧
    Event.write 0x50 [0x13] .ok ∈ new ∧ (Event.write 0x50 [0x13] .ok).busAddress = some 0x50 ∧
    Instr.rdreg 0x13 ≠ .pwrcyc :=
  ⟨_, ⟨none, some (.word 0)⟩,
    [.write 0x50 [0x13] .ok, .wait 100, .read 0x50 3 (.ok [0x5A, 0, 0])], rfl, rfl, rfl, rfl,
    by decide, by decide, by decide, by decide, by decide⟩

/-- The same for the operations that write a settle, pay it, and send the longest frame. -/
theorem witness_Settle : ∃ t u v : State,
    (exec (.wrreg 0x13 0xFFFF) reading = .next t ∧
      t.history = reading.history ++ [.write 0x50 [0x53, 0xFF, 0xFF] .ok]) ∧
    (exec (.sleep 0) t = .next u ∧ u.history = t.history ++ [.wait 0]) ∧
    (exec .pwrcyc t = .next v ∧
      v.history = t.history ++ [.power .low, .wait 500, .power .high, .wait 500]) ∧
    (∀ a : Nat, Instr.sleep 0 ≠ .setaddr a) :=
  ⟨_, _, _, ⟨rfl, rfl⟩, ⟨rfl, rfl⟩, ⟨rfl, rfl⟩, by intro a h; cases h⟩

theorem witness_AddressChanged :
    (∃ (t : State) (r : Response), exec (.setaddr 0x7F) (at_ .unknown 0 []) = .next t ∧
      t.responses = (at_ .unknown 0 []).responses ++ [r] ∧ r.error = none) ∧
    (moved .unknown []).cfg.modeGuard = .enforce ∧ (moved .unknown []).addrChanged = true :=
  ⟨⟨_, _, rfl, rfl, rfl⟩, rfl, rfl⟩

/-- Each successful and each refused transition under `enforce` (R95). -/
theorem witness_Transitions :
    exampleCfg.modeGuard = .enforce ∧
    ((last (exec .startcm (at_ .poweredIdle 0 [acked]))).map Response.error = some none ∧
      (last (exec .startnom (at_ .commandMode 0 [acked]))).map Response.error = some none ∧
      (last (exec (.rdreg 0x13) reading)).map Response.error = some none ∧
      (last (exec (.wrreg 0x13 0xFFFF) reading)).map Response.error = some none ∧
      (last (exec .rdsample (moved .normalOperation [.done [0, 0]]))).map Response.error = some none) ∧
    ((last (exec .startcm (at_ .commandMode 0 []))).map Response.status = some .modeError ∧
      (last (exec .startcm (at_ .poweredIdle 0 [.failed]))).map Response.error = some (some .sendFailed)) := by
  decide

/-- ModeError and FieldRange both arise (R114). -/
theorem witness_Refused :
    (∃ (t : State) (r : Response), exec (.rdreg 0x14) reading = .next t ∧
      t.responses = reading.responses ++ [r] ∧ r.error = some (.fieldRange 0x14)) ∧
    ∃ (t : State) (r : Response), exec .rdsample reading = .next t ∧
      t.responses = reading.responses ++ [r] ∧ r.status = .modeError :=
  ⟨⟨_, _, rfl, rfl, rfl⟩, _, _, rfl, rfl, rfl⟩

/-- Every sub-cause but the reserved one is raised (R112); the expected infos are those of rows T3, R-9,
R-11, L1-7, L1-4, W-6, T4 and A-7, and of R96, R98, R100 with D38 for the encoders. -/
theorem witness_SubCauses :
    (at_ .commandMode 0 [acked, .done [0xA5, 1, 2]]).replyAt 1 = .done [0xA5, 1, 2] ∧
    errorOf (exec .startcm (at_ .poweredIdle 0 [.failed])) = some .sendFailed ∧
    errorOf (exec (.rdreg 1) (at_ .commandMode 0 [acked, .failed])) = some .readFailed ∧
    errorOf (exec (.rdreg 1) (at_ .commandMode 0 [acked, .done [0xA5, 1, 2]])) = some (.badStatus 0xA5) ∧
    errorOf (exec (.encGain 0x42000000) reading) = some (.gainUnencodable 0x42000000) ∧
    errorOf (exec (.decBridge 0x0000) reading) = some (.invalidMux 0) ∧
    errorOf (exec (.wrreg 5 0x10000) reading) = some (.fieldRange 0x10000) ∧
    errorOf (exec (.encCfg1 ⟨0, 0, 0, 4, 0, 0, 0, 0, 0, 0, 0⟩) reading) = some (.fieldRange 4) ∧
    errorOf (exec (.encCfg2 ⟨0, 0, 0, 0x80, .locked, .locked⟩) reading) = some (.fieldRange 0x80) ∧
    errorOf (exec (.encCfg2 ⟨2, 0, 0, 0x7F, .locked, .locked⟩) reading) = some (.fieldRange 2) ∧
    errorOf (exec (.encBridge ⟨16, .g3, 0, 0, 0, .fullBridge, 0⟩) reading) = some (.fieldRange 16) ∧
    errorOf (exec (.encBridge ⟨15, .g3, 2, 0, 0, .fullBridge, 0⟩) reading) = some (.fieldRange 2) ∧
    errorOf (exec .startcm reading) = some (.wrongState .commandMode) ∧
    errorOf (exec (.setaddr 0x29) (moved .unknown [])) = some (.addressAlreadyChanged 0x28) := by
  decide +kernel

theorem witness_Sleeps : (at_ .commandMode 150000 []).settleRemaining ≤ 149999 + 1 := by decide

theorem witness_Frames :
    exampleCfg.hasSourceCodes = true ∧ Instr.wellFormed exampleCfg (.wrreg 0x13 0xFFFF) = true ∧
    encode exampleCfg (.wrreg 0x13 0xFFFF) = some [0x53, 0xFF, 0xFF] ∧
    decode exampleCfg [0x53, 0xFF, 0xFF, 0x00] = .ok (.wrreg 0x13 0xFFFF, [0x00]) :=
  ⟨by decide, by decide, rfl, rfl⟩

/-- A consistent state with a request, and its step. -/
theorem witness_Consistent :
    ({ at_ .poweredIdle 0 [acked] with pending := [.op .startcm] } : State).Consistent ∧
    ∃ t : State, Sys2Proof.Machine.step { at_ .poweredIdle 0 [acked] with pending := [.op .startcm] } = .next t :=
  ⟨⟨by decide, by decide, by decide, by decide, by decide⟩, _, rfl⟩

/-- Two steps of a run that ends meaningful. -/
theorem witness_Reachable : ∃ t : State,
    Reachable { at_ .commandMode 1 [acked] with pending := [.op (.sleep 1), .op .startnom] } t ∧
    t.meaningful = true :=
  ⟨_, .step (.step .start rfl) rfl, rfl⟩

theorem witness_Steps :
    State.reset.pending = [] ∧
    (State.reset.withFetchWord 8 0xA0).pending = .frame [0xA0, 0, 0] :: [] ∧
    decode State.reset.cfg [0xA0, 0, 0] = .ok (.startcm, [0, 0]) ∧
    decode State.reset.cfg [0x54, 0, 0] = .error (.notACommand 0x54) ∧
    ∃ t : State, Sys2Proof.Machine.step (State.reset.withFetchWord 8 0xA0) = .next t :=
  ⟨rfl, rfl, rfl, rfl, _, rfl⟩

theorem witness_Entercm : (at_ .unknown 0 [acked]).replyAt 0 = .done [] := by decide

/-- The value 0x00C1 of P1 pc 8. -/
theorem witness_RmwCfg1 :
    (at_ .commandMode 0 [acked, .done [0x5A, 0x00, 0xC1], acked]).ps = .commandMode ∧
    exampleCfg.regConfig1 < exampleCfg.nreg ∧
    (at_ .commandMode 0 [acked, .done [0x5A, 0x00, 0xC1], acked]).settleRemaining = 0 ∧
    (at_ .commandMode 0 [acked, .done [0x5A, 0x00, 0xC1], acked]).replyAt 0 = .done [] ∧
    (at_ .commandMode 0 [acked, .done [0x5A, 0x00, 0xC1], acked]).replyAt 1 = .done [exampleCfg.statusOk,
      BitVec.ofNat 8 ((0x00C1 : Word).toNat / 256), BitVec.ofNat 8 (0x00C1 : Word).toNat] ∧
    (at_ .commandMode 0 [acked, .done [0x5A, 0x00, 0xC1], acked]).replyAt 2 = .done [] := by decide

/-- P3: the value 0x0000, repaired to a full bridge. -/
theorem witness_RmwBridge :
    (at_ .commandMode 0 [acked, .done [0x5A, 0, 0], acked]).ps = .commandMode ∧
    exampleCfg.regBridge < exampleCfg.nreg ∧
    (at_ .commandMode 0 [acked, .done [0x5A, 0, 0], acked]).replyAt 0 = .done [] ∧
    (at_ .commandMode 0 [acked, .done [0x5A, 0, 0], acked]).replyAt 1 = .done [exampleCfg.statusOk,
      BitVec.ofNat 8 ((0 : Word).toNat / 256), BitVec.ofNat 8 (0 : Word).toNat] ∧
    (at_ .commandMode 0 [acked, .done [0x5A, 0, 0], acked]).replyAt 2 = .done [] ∧
    (0 : Word).getLsbD 11 = false ∧
    ({ decBridgeRecord 0 with mux := .fullBridge } : BridgeConfig).mux = .fullBridge ∧
    0x0800 = encBridgeWord ({ decBridgeRecord 0 with mux := .fullBridge } : BridgeConfig).codes := by decide

theorem witness_Passthrough : ∃ (t : State) (r : Response),
    (pass (at_ .normalOperation 0 [acked])).cfg.modeGuard = .passthrough ∧
    exec .startcm (pass (at_ .normalOperation 0 [acked])) = .next t ∧
    t.responses = (pass (at_ .normalOperation 0 [acked])).responses ++ [r] :=
  ⟨_, _, rfl, rfl, rfl⟩

/-- A run in which a second SETADDR is asked for. -/
theorem witness_AddressKept :
    (∃ t : State, Reachable { moved .unknown [] with pending := [.op (.setaddr 0x29)] } t ∧
      t.responses ≠ []) ∧
    (moved .unknown []).cfg.modeGuard = .enforce ∧ (moved .unknown []).addrChanged = true :=
  ⟨⟨_, .step .start rfl, by decide⟩, rfl, rfl⟩

/-- The replies of P1 pc 3 to 5. -/
def customerIds : State := at_ .commandMode 0 [acked, .done [0x5A, 0x12, 0x34], acked,
  .done [0x5A, 0x00, 0x56], acked, .done [0x5A, 0x00, 0x78]]

theorem witness_Rdfactid :
    customerIds.ps = .commandMode ∧ customerIds.cfg.regCustId0 + 2 < customerIds.cfg.nreg ∧
    customerIds.replyAt 0 = .done [] ∧ customerIds.replyAt 2 = .done [] ∧ customerIds.replyAt 4 = .done [] ∧
    customerIds.replyAt 1 = .done [customerIds.cfg.statusOk,
      BitVec.ofNat 8 ((0x1234 : Word).toNat / 256), BitVec.ofNat 8 (0x1234 : Word).toNat] ∧
    customerIds.replyAt 3 = .done [customerIds.cfg.statusOk,
      BitVec.ofNat 8 ((0x0056 : Word).toNat / 256), BitVec.ofNat 8 (0x0056 : Word).toNat] ∧
    customerIds.replyAt 5 = .done [customerIds.cfg.statusOk,
      BitVec.ofNat 8 ((0x0078 : Word).toNat / 256), BitVec.ofNat 8 (0x0078 : Word).toNat] := by decide

/-- P1 pc 3 to 6 in one go. -/
theorem test_rdFactId : okValue (rdFactId .stop customerIds) =
    some (.factory ⟨0x3C0, 0x12, 0x34, 0x56⟩) := by decide +kernel

end Sys2Proof.Tests
end

section
/-! The configuration of this hardware (00_scope.md R10, R11): its parameters as facts a proof can cite. -/

namespace Sys2Proof.Config

theorem hasSourceCodes_iff {c : Config} : c.hasSourceCodes = true ↔
    c.nreg = 20 ∧ c.wrOffset = 0x40 ∧ c.cmdStartCm = 0xA0 ∧ c.cmdStartNom = 0x80 ∧ c.statusOk = 0x5A := by
  simp [hasSourceCodes, and_assoc]

theorem rolesInRange_iff {c : Config} : c.rolesInRange = true ↔
    c.regConfig1 < c.nreg ∧ c.regConfig2 < c.nreg ∧ c.regBridge < c.nreg ∧ c.regGain < c.nreg ∧
      c.regCustId0 + 2 < c.nreg ∧ c.regOffset < c.nreg := by
  simp [rolesInRange, and_assoc]

theorem thisHardware_hasSourceCodes : thisHardware.hasSourceCodes = true := by decide

/-- R11 is carried by the types of the OPEN roles: whatever the indices are, `Fin 20` bounds a single
register, and `Fin 18` leaves room for the two customer IDs after the first. -/
theorem thisHardware_rolesInRange : thisHardware.rolesInRange = true :=
  rolesInRange_iff.mpr ⟨openRegConfig1.isLt, openRegConfig2.isLt, openRegBridge.isLt, openRegGain.isLt,
    Nat.add_lt_add_right openRegCustId0.isLt 2, openRegOffset.isLt⟩

end Sys2Proof.Config

namespace Sys2Proof.Machine

@[simp] theorem State.reset_cfg : State.reset.cfg = Config.thisHardware := rfl

/-- Settles O48: the five codes are those of `hasSourceCodes`, the times and the guard are read off the
value column, and each role lies below `nreg = 20`, which is R11's bound 0x13. -/
theorem configurationIsTheSourceLiterals : Obligations.ConfigurationIsTheSourceLiterals := by
  unfold Obligations.ConfigurationIsTheSourceLiterals
  rw [State.reset_cfg]
  obtain ⟨hNreg, hWr, hCm, hNom, hStatus⟩ := Config.hasSourceCodes_iff.mp Config.thisHardware_hasSourceCodes
  obtain ⟨hConfig1, hConfig2, hBridge, hGain, hCustId, hOffset⟩ :=
    Config.rolesInRange_iff.mp Config.thisHardware_rolesInRange
  rw [hNreg] at hConfig1 hConfig2 hBridge hGain hCustId hOffset
  exact ⟨hNreg, hWr, hCm, hNom, hStatus, le_rfl, le_rfl, le_rfl, le_rfl, rfl, rfl,
    Nat.le_of_lt_succ hConfig1, Nat.le_of_lt_succ hConfig2, Nat.le_of_lt_succ hBridge,
    Nat.le_of_lt_succ hGain, Nat.le_of_lt_succ hCustId, Nat.le_of_lt_succ hOffset⟩

end Sys2Proof.Machine
end

section
/-! What an operation can do to the state (10_state.md R22 to R28), said once: `exec_completes` gives for every
operation in every state the new events, the response and the state left, as one of the six cases of
`Completion`. The claims on single state fields are read off those cases. -/

namespace Sys2Proof.Machine

/-! Transactions among events. -/

section
variable (es : List Event)

@[simp] theorem busTransactions_nil : busTransactions [] = 0 := rfl

theorem busTransactions_append (fs : List Event) :
    busTransactions (es ++ fs) = busTransactions es + busTransactions fs := by
  simp [busTransactions]

@[simp] theorem busTransactions_snoc_write (a : BusAddr) (bytes : List Byte) (res : WriteResult) :
    busTransactions (es ++ [.write a bytes res]) = busTransactions es + 1 := busTransactions_append es _

@[simp] theorem busTransactions_snoc_read (a : BusAddr) (n : Nat) (res : ReadResult) :
    busTransactions (es ++ [.read a n res]) = busTransactions es + 1 := busTransactions_append es _

@[simp] theorem busTransactions_snoc_wait (t : Nat) :
    busTransactions (es ++ [.wait t]) = busTransactions es := busTransactions_append es _

end

/-! The state after bus traffic. Every bus operation begins with the hazard check, and each primitive that
follows adds one event to the traffic. -/

/-- `s` after the hazard check and the events `new`, with the tracked state and the settle owed as given: each
transaction among the events has used one reply. -/
def State.afterTraffic (s : State) (new : List Event) (p : ProtoState) (d : Nat) : State := { s with
  ps := p
  settleRemaining := d
  hazardFault := s.hazardFault || decide (0 < s.settleRemaining)
  history := s.history ++ new
  answers := s.answers.drop (busTransactions new)
  busCount := s.busCount + busTransactions new }

section
variable (s : State) (new : List Event) (p : ProtoState) (d : Nat)

@[simp] theorem State.afterTraffic_ps : (s.afterTraffic new p d).ps = p := rfl
@[simp] theorem State.afterTraffic_busAddr : (s.afterTraffic new p d).busAddr = s.busAddr := rfl
@[simp] theorem State.afterTraffic_addrChanged : (s.afterTraffic new p d).addrChanged = s.addrChanged := rfl
@[simp] theorem State.afterTraffic_pwr : (s.afterTraffic new p d).pwr = s.pwr := rfl
@[simp] theorem State.afterTraffic_settleRemaining : (s.afterTraffic new p d).settleRemaining = d := rfl
@[simp] theorem State.afterTraffic_hazardFault : (s.afterTraffic new p d).hazardFault =
    (s.hazardFault || decide (0 < s.settleRemaining)) := rfl
@[simp] theorem State.afterTraffic_responses : (s.afterTraffic new p d).responses = s.responses := rfl
@[simp] theorem State.afterTraffic_history : (s.afterTraffic new p d).history = s.history ++ new := rfl
@[simp] theorem State.afterTraffic_cfg : (s.afterTraffic new p d).cfg = s.cfg := rfl
@[simp] theorem State.afterTraffic_pending : (s.afterTraffic new p d).pending = s.pending := rfl
@[simp] theorem State.afterTraffic_answers : (s.afterTraffic new p d).answers =
    s.answers.drop (busTransactions new) := rfl
@[simp] theorem State.afterTraffic_busCount : (s.afterTraffic new p d).busCount =
    s.busCount + busTransactions new := rfl

@[simp] theorem State.afterTraffic_setPs (q : ProtoState) :
    (s.afterTraffic new p d).setPs q = s.afterTraffic new q d := rfl

@[simp] theorem State.afterTraffic_setSettle (e : Nat) :
    (s.afterTraffic new p d).setSettle e = s.afterTraffic new p e := rfl

/-- R129: before any traffic the hazard check alone has been made. -/
theorem hazardCheck_eq_afterTraffic : hazardCheck s = s.afterTraffic [] s.ps s.settleRemaining := by
  simp [hazardCheck_eq, State.afterTraffic]

theorem replyAt_afterTraffic (k : Nat) :
    (s.afterTraffic new p d).replyAt k = s.replyAt (busTransactions new + k) := by
  simp [State.replyAt, Nat.add_assoc]

theorem busWrite_afterTraffic (bytes : List Byte) : busWrite bytes (s.afterTraffic new p d) =
    (writeResult (s.replyAt (busTransactions new)), s.afterTraffic
      (new ++ [.write s.busAddr bytes (writeResult (s.replyAt (busTransactions new)))]) p d) := by
  rw [busWrite_eq, replyAt_afterTraffic]
  simp [State.afterTraffic, Nat.add_assoc]

theorem busRead_afterTraffic (n : Nat) : busRead n (s.afterTraffic new p d) =
    (readResult n (s.replyAt (busTransactions new)), s.afterTraffic
      (new ++ [.read s.busAddr n (readResult n (s.replyAt (busTransactions new)))]) p d) := by
  rw [busRead_eq, replyAt_afterTraffic]
  simp [State.afterTraffic, Nat.add_assoc]

theorem wait_afterTraffic (t : Nat) :
    wait t (s.afterTraffic new p d) = s.afterTraffic (new ++ [.wait t]) p d := by
  simp [wait_eq, State.afterTraffic]

end

/-! The six cases of an operation. -/

/-- The tracked states bus traffic can lead to (R95): `Unknown`, the same, or the next of the start-up order. -/
inductive TrafficTransition : ProtoState → ProtoState → Prop where
  | lost (p : ProtoState) : TrafficTransition p .unknown
  | same (p : ProtoState) : TrafficTransition p p
  | enter : TrafficTransition .poweredIdle .commandMode
  | start : TrafficTransition .commandMode .normalOperation

/-- Events of bus traffic under the address `a`: each is a transaction under `a` or a wait, and at least one
is a transaction. -/
structure IsTraffic (a : BusAddr) (new : List Event) : Prop where
  some_bus : ∃ e ∈ new, e.isBus = true
  each : ∀ e ∈ new, e.busAddress = some a ∨ ∃ t, e = .wait t

section
variable {a : BusAddr} {new : List Event}

theorem isTraffic_write (bytes : List Byte) (res : WriteResult) : IsTraffic a [.write a bytes res] :=
  ⟨⟨.write a bytes res, by simp, rfl⟩, by simp [Event.busAddress]⟩

theorem isTraffic_read (n : Nat) (res : ReadResult) : IsTraffic a [.read a n res] :=
  ⟨⟨.read a n res, by simp, rfl⟩, by simp [Event.busAddress]⟩

theorem IsTraffic.snoc (h : IsTraffic a new) {e : Event} (he : e.busAddress = some a ∨ ∃ t, e = .wait t) :
    IsTraffic a (new ++ [e]) := by
  obtain ⟨⟨b, hb, hbus⟩, heach⟩ := h
  refine ⟨⟨b, by simp [hb], hbus⟩, fun f hf => ?_⟩
  rcases List.mem_append.mp hf with hf | hf
  · exact heach f hf
  · rwa [List.mem_singleton.mp hf]

theorem IsTraffic.snoc_wait (h : IsTraffic a new) (t : Nat) : IsTraffic a (new ++ [.wait t]) :=
  h.snoc (.inr ⟨t, rfl⟩)

theorem IsTraffic.snoc_read (h : IsTraffic a new) (n : Nat) (res : ReadResult) :
    IsTraffic a (new ++ [.read a n res]) := h.snoc (.inl rfl)

theorem IsTraffic.ne_nil (h : IsTraffic a new) : new ≠ [] := by
  obtain ⟨_, hmem, _⟩ := h.some_bus
  exact List.ne_nil_of_mem hmem

end

/-- The write settle owed after the traffic of an operation (R26). -/
def settleAfterTraffic (s : State) : Instr → Nat
  | .wrreg _ _ => s.cfg.tWrSettle
  | _ => s.settleRemaining

/-- `Completion s i new r u`: from `s` the operation `i` may perform the events `new` and answer `r`, and `u` is
the state it leaves but for that response. -/
inductive Completion (s : State) : Instr → List Event → Response → State → Prop where
  /-- A codec operation touches nothing (R103). -/
  | codec {i : Instr} {r : Response} (hi : isCodec i = true) : Completion s i [] r s
  /-- A bus operation or SETADDR ends in an error before it does anything (R114). -/
  | refused {i : Instr} {c : Cause} (hi : 0 < bytesWritten i + bytesRead i ∨ ∃ a, i = .setaddr a) :
      Completion s i [] ⟨some c, none⟩ s
  /-- R86 -/
  | pwrcyc : Completion s .pwrcyc [.power .low, .wait s.cfg.tPwrLow, .power .high, .wait s.cfg.tPwrHigh]
      ⟨none, none⟩ ((s.afterTraffic
        [.power .low, .wait s.cfg.tPwrLow, .power .high, .wait s.cfg.tPwrHigh] .poweredIdle 0).setPwr .high)
  /-- A bus operation gets as far as the bus, and succeeds or fails there (R87 to R91). -/
  | traffic {i : Instr} {new : List Event} {r : Response} {p : ProtoState}
      (hi : 0 < bytesWritten i + bytesRead i) (hnew : IsTraffic s.busAddr new)
      (hp : TrafficTransition s.ps p) :
      Completion s i new r (s.afterTraffic new p (settleAfterTraffic s i))
  /-- R92 -/
  | sleep (t : Nat) : Completion s (.sleep t) [.wait t] ⟨none, none⟩ { s with
      ps := if s.ps = .poweredIdle ∧ 0 < t then .unknown else s.ps
      settleRemaining := s.settleRemaining - t
      history := s.history ++ [.wait t] }
  /-- R93 -/
  | setaddr (a : Nat) (h : ¬ (s.cfg.modeGuard = .enforce ∧ s.addrChanged = true)) :
      Completion s (.setaddr a) [] ⟨none, none⟩ (s.setAddr (BitVec.ofNat 7 a))

/-- The result `res` of performing `i` from `s` is a next state, as one of the cases of `Completion`. -/
def Completes (s : State) (i : Instr) (res : Result) : Prop :=
  ∃ (new : List Event) (r : Response) (u : State), res = .next (u.respond r) ∧ Completion s i new r u

/-! Each operation is one of the six cases. -/

section
variable {s u : State} {i : Instr} {new : List Event}

theorem completes_finish {v : Option Value} (h : Completion s i new ⟨none, v⟩ u) :
    Completes s i (finish v u) := ⟨_, _, _, rfl, h⟩

theorem completes_raise {c : Cause} (h : Completion s i new ⟨some c, none⟩ u) :
    Completes s i (raise c u) := ⟨_, _, _, rfl, h⟩

end

/-- R103: the response of a codec operation depends on no state, and is all it leaves. -/
theorem exec_codec {i : Instr} (hi : isCodec i = true) :
    ∃ r : Response, ∀ s : State, exec i s = .next (s.respond r) := by
  cases i with
  | encCfg1 rec =>
    simp only [exec, execEncCfg1]
    split <;> exact ⟨_, fun _ => rfl⟩
  | encCfg2 rec =>
    simp only [exec, execEncCfg2]
    repeat' split
    all_goals exact ⟨_, fun _ => rfl⟩
  | encBridge rec =>
    simp only [exec, execEncBridge]
    repeat' split
    all_goals exact ⟨_, fun _ => rfl⟩
  | decBridge v =>
    simp only [exec, execDecBridge]
    split <;> exact ⟨_, fun _ => rfl⟩
  | encGain g =>
    simp only [exec, execEncGain]
    split <;> exact ⟨_, fun _ => rfl⟩
  | decCfg1 | decCfg2 | decFactid | decGain => exact ⟨_, fun _ => rfl⟩
  | pwrcyc | startcm | startnom | rdreg | wrreg | rdsample | sleep | setaddr => cases hi

section
variable (s : State)

theorem exec_codec_completes {i : Instr} (hi : isCodec i = true) : Completes s i (exec i s) := by
  obtain ⟨r, hr⟩ := exec_codec hi
  exact ⟨[], r, s, hr s, .codec hi⟩

theorem execPwrcyc_completes : Completes s .pwrcyc (execPwrcyc s) := by
  refine ⟨_, _, _, ?_, .pwrcyc⟩
  simp [execPwrcyc, finish, hazardCheck_eq_afterTraffic, setPower_eq, wait_eq, State.afterTraffic, State.setPs,
    State.setPwr, State.setSettle, busTransactions, Event.isBus, Event.busAddress]

theorem execStartcm_completes : Completes s .startcm (execStartcm s) := by
  unfold execStartcm
  split
  · exact completes_raise (.refused (.inl (by decide)))
  · simp only [hazardCheck_eq_afterTraffic, busWrite_afterTraffic]
    cases writeResult (s.replyAt _) with
    | fail => exact completes_raise (.traffic (by decide) (isTraffic_write _ _) (.lost _))
    | ok =>
      simp only [wait_afterTraffic, State.afterTraffic_setPs]
      refine completes_finish (.traffic (by decide) ((isTraffic_write _ _).snoc_wait _) ?_)
      split
      next hps => exact hps ▸ .enter
      next => exact .lost _

theorem execStartnom_completes : Completes s .startnom (execStartnom s) := by
  unfold execStartnom
  split
  · exact completes_raise (.refused (.inl (by decide)))
  · simp only [hazardCheck_eq_afterTraffic, busWrite_afterTraffic]
    cases writeResult (s.replyAt _) with
    | fail => exact completes_raise (.traffic (by decide) (isTraffic_write _ _) (.lost _))
    | ok =>
      simp only [State.afterTraffic_setPs]
      refine completes_finish (.traffic (by decide) (isTraffic_write _ _) ?_)
      split
      next hps => exact hps ▸ .start
      next => exact .lost _

theorem execRdreg_completes (r : Nat) : Completes s (.rdreg r) (execRdreg r s) := by
  unfold execRdreg
  split
  · exact completes_raise (.refused (.inl (Nat.succ_pos _)))
  split
  · exact completes_raise (.refused (.inl (Nat.succ_pos _)))
  · simp only [hazardCheck_eq_afterTraffic, busWrite_afterTraffic]
    cases writeResult (s.replyAt _) with
    | fail => exact completes_raise (.traffic (Nat.succ_pos _) (isTraffic_write _ _) (.same _))
    | ok =>
      simp only [wait_afterTraffic, busRead_afterTraffic]
      generalize readResult 3 (s.replyAt _) = res
      have htraffic := ((isTraffic_write (a := s.busAddr) (frameCmd1 s.cfg (.read r)) .ok).snoc_wait
        s.cfg.tRdDelay).snoc_read 3 res
      split
      next heq =>
        cases heq
        split
        · exact completes_finish (.traffic (Nat.succ_pos _) htraffic (.same _))
        · exact completes_raise (.traffic (Nat.succ_pos _) htraffic (.same _))
      next heq =>
        cases heq
        exact completes_raise (.traffic (Nat.succ_pos _) htraffic (.same _))

theorem execWrreg_completes (r v : Nat) : Completes s (.wrreg r v) (execWrreg r v s) := by
  unfold execWrreg
  split
  · exact completes_raise (.refused (.inl (Nat.succ_pos _)))
  split
  · exact completes_raise (.refused (.inl (Nat.succ_pos _)))
  split
  · exact completes_raise (.refused (.inl (Nat.succ_pos _)))
  · simp only [hazardCheck_eq_afterTraffic, busWrite_afterTraffic]
    cases writeResult (s.replyAt _) with
    | fail => exact completes_raise (.traffic (Nat.succ_pos _) (isTraffic_write _ _) (.same _))
    | ok => exact completes_finish (.traffic (Nat.succ_pos _) (isTraffic_write _ _) (.same _))

theorem execRdsample_completes : Completes s .rdsample (execRdsample s) := by
  unfold execRdsample
  split
  · exact completes_raise (.refused (.inl (by decide)))
  · simp only [hazardCheck_eq_afterTraffic, busRead_afterTraffic]
    generalize readResult 2 (s.replyAt _) = res
    split
    all_goals
      rename_i heq
      cases heq
    · exact completes_finish (.traffic (by decide) (isTraffic_read _ _) (.same _))
    · exact completes_raise (.traffic (by decide) (isTraffic_read _ _) (.same _))

theorem execSleep_completes (t : Nat) : Completes s (.sleep t) (execSleep t s) := by
  refine ⟨_, _, _, ?_, .sleep t⟩
  by_cases h : s.ps = .poweredIdle ∧ 0 < t
  · simp [execSleep, wait_eq, h, finish, State.setSettle, State.setPs]
  · simp [execSleep, wait_eq, h, finish, State.setSettle]

theorem execSetaddr_completes (a : Nat) : Completes s (.setaddr a) (execSetaddr a s) := by
  unfold execSetaddr
  split
  · exact completes_raise (.refused (.inr ⟨a, rfl⟩))
  split
  · exact completes_raise (.refused (.inr ⟨a, rfl⟩))
  next h => exact completes_finish (.setaddr a h)

/-- Every operation in every state ends in one of the six cases of `Completion`. -/
theorem exec_completes (i : Instr) : Completes s i (exec i s) := by
  cases i with
  | pwrcyc => exact execPwrcyc_completes s
  | startcm => exact execStartcm_completes s
  | startnom => exact execStartnom_completes s
  | rdreg r => exact execRdreg_completes s r
  | wrreg r v => exact execWrreg_completes s r v
  | rdsample => exact execRdsample_completes s
  | sleep t => exact execSleep_completes s t
  | setaddr a => exact execSetaddr_completes s a
  | encCfg1 | decCfg1 | encCfg2 | decCfg2 | encBridge | decBridge | decFactid | encGain | decGain =>
    exact exec_codec_completes s rfl

end
end Sys2Proof.Machine
end

section
/-! What every operation keeps, and how the cases of `Completion` are found from an operation's outcome, its new
events or its response. -/

namespace Sys2Proof.Machine

section
variable {s t u : State} {i : Instr} {new : List Event} {r : Response}

theorem Completion.cfg_eq (h : Completion s i new r u) : u.cfg = s.cfg := by cases h <;> rfl

theorem Completion.pending_eq (h : Completion s i new r u) : u.pending = s.pending := by cases h <;> rfl

theorem Completion.responses_eq (h : Completion s i new r u) : u.responses = s.responses := by cases h <;> rfl

theorem Completion.history_eq (h : Completion s i new r u) : u.history = s.history ++ new := by
  cases h <;> simp

/-- No operation stops the machine (R114). -/
theorem exec_answers_next (s : State) (i : Instr) : ∃ t : State, exec i s = .next t := by
  obtain ⟨_, r, u, hexec, _⟩ := exec_completes s i
  exact ⟨u.respond r, hexec⟩

/-- What an operation that answers a next state has done. -/
theorem completion_of_exec (h : exec i s = .next t) :
    ∃ (new : List Event) (r : Response) (u : State), t = u.respond r ∧ Completion s i new r u := by
  obtain ⟨new, r, u, hexec, hc⟩ := exec_completes s i
  cases h.symm.trans hexec
  exact ⟨new, r, u, rfl, hc⟩

/-- The same where the new events are given. -/
theorem completion_of_history (h : exec i s = .next t) (hnew : t.history = s.history ++ new) :
    ∃ (r : Response) (u : State), t = u.respond r ∧ Completion s i new r u := by
  obtain ⟨new', r, u, rfl, hc⟩ := completion_of_exec h
  rw [State.respond_history, hc.history_eq, List.append_cancel_left_eq] at hnew
  exact ⟨r, u, rfl, hnew ▸ hc⟩

/-- The same where the response is given. -/
theorem completion_of_responses (h : exec i s = .next t) (hr : t.responses = s.responses ++ [r]) :
    ∃ (new : List Event) (u : State), t = u.respond r ∧ Completion s i new r u := by
  obtain ⟨new, r', u, rfl, hc⟩ := completion_of_exec h
  rw [State.respond_responses, hc.responses_eq, List.append_cancel_left_eq, List.singleton_inj] at hr
  exact ⟨new, u, hr ▸ rfl, hr ▸ hc⟩

end

/-! Steps and runs. -/

theorem step_of_no_request {s : State} (h : s.pending = []) : step s = .next s := by
  simp only [step, h]

theorem step_of_request {s : State} {q : Request} {qs : List Request} {i : Instr} (h : s.pending = q :: qs)
    (hq : requestedOp s.cfg q = .ok i) : step s = exec i s.dropRequest := by
  simp only [step, h, hq]

theorem step_of_no_command {s : State} {q : Request} {qs : List Request} {e : DecodeError}
    (h : s.pending = q :: qs) (hq : requestedOp s.cfg q = .error e) :
    step s = .refused (.notACommandFrame e) := by
  simp only [step, h, hq]

/-- All a step that answers a next state can do: nothing, for want of a request, or one operation. -/
theorem step_eq_next {s t : State} (h : step s = .next t) :
    (s.pending = [] ∧ t = s) ∨ ∃ (i : Instr) (new : List Event) (r : Response) (u : State),
      s.pending ≠ [] ∧ t = u.respond r ∧ Completion s.dropRequest i new r u := by
  cases hp : s.pending with
  | nil =>
    rw [step_of_no_request hp] at h
    cases h
    exact .inl ⟨rfl, rfl⟩
  | cons q qs =>
    cases hq : requestedOp s.cfg q with
    | error e => cases (step_of_no_command hp hq).symm.trans h
    | ok i =>
      rw [step_of_request hp hq] at h
      obtain ⟨new, r, u, rfl, hc⟩ := completion_of_exec h
      exact .inr ⟨i, new, r, u, by simp, rfl, hc⟩

/-- What every step keeps holds all along a run from a state where it holds. -/
theorem Reachable.invariant {P : State → Prop} {s t : State} (hrun : Reachable s t) (hs : P s)
    (hstep : ∀ t u : State, P t → Sys2Proof.Machine.step t = .next u → P u) : P t := by
  induction hrun with
  | start => exact hs
  | step _ hu ih => exact hstep _ _ ih hu

end Sys2Proof.Machine
end

section
/-! The claims that hold along a run: the address kept under `enforce`, the fault bit never cleared, and the
invariant `Consistent`. -/

namespace Sys2Proof.Machine

section
variable {s u : State} {i : Instr} {new : List Event} {r : Response}

/-- R93: under `enforce` the one operation that writes the address is refused once it has been written. -/
theorem Completion.address_kept (h : Completion s i new r u) (hguard : s.cfg.modeGuard = .enforce)
    (hchanged : s.addrChanged = true) : u.busAddr = s.busAddr ∧ u.addrChanged = true := by
  cases h with
  | setaddr a hfree => exact absurd ⟨hguard, hchanged⟩ hfree
  | codec | refused | pwrcyc | traffic | sleep => exact ⟨rfl, hchanged⟩

/-- R27: no operation clears the fault bit. -/
theorem Completion.hazardFault_kept (h : Completion s i new r u) (hs : s.hazardFault = true) :
    u.hazardFault = true := by
  cases h with
  | pwrcyc | traffic => simp [hs]
  | codec | refused | sleep | setaddr => exact hs

end

/-- Settles O35: `enforce`, the changed bit and the address are together kept by every step, and so along
every run. -/
theorem anAddressOnceChangedStaysForTheRun : Obligations.AnAddressOnceChangedStaysForTheRun := by
  unfold Obligations.AnAddressOnceChangedStaysForTheRun
  intro s t hrun hguard hchanged
  refine (hrun.invariant
    (P := fun u => u.cfg.modeGuard = .enforce ∧ u.busAddr = s.busAddr ∧ u.addrChanged = true)
    ⟨hguard, rfl, hchanged⟩ ?_).2
  intro u v ⟨hg, haddr, hc⟩ hstep
  obtain ⟨-, rfl⟩ | ⟨i, new, r, w, -, rfl, hw⟩ := step_eq_next hstep
  · exact ⟨hg, haddr, hc⟩
  · obtain ⟨haddr', hc'⟩ := hw.address_kept hg hc
    exact ⟨hw.cfg_eq ▸ hg, haddr'.trans haddr, hc'⟩

/-- Settles O51: a set fault bit is kept by every step, and so along every run. -/
theorem aMeaningfulEndWasMeaningfulAllAlong : Obligations.AMeaningfulEndWasMeaningfulAllAlong := by
  unfold Obligations.AMeaningfulEndWasMeaningfulAllAlong
  intro s t hrun hend
  simp only [State.meaningful, Bool.not_eq_true'] at hend ⊢
  by_contra hs
  have ht : t.hazardFault = true := by
    refine hrun.invariant (P := fun u => u.hazardFault = true) (by simpa using hs) ?_
    intro u v hu hstep
    obtain ⟨-, rfl⟩ | ⟨i, new, r, w, -, rfl, hw⟩ := step_eq_next hstep
    · exact hu
    · exact hw.hazardFault_kept hu
  simp [ht] at hend

/-! The invariant. -/

theorem TrafficTransition.ne_unpowered {p q : ProtoState} (h : TrafficTransition p q)
    (hp : p ≠ .unpowered) : q ≠ .unpowered := by
  cases h with
  | same => exact hp
  | lost | enter | start => decide

/-- Bus traffic leads into no state that follows a power cycle from outside these states. -/
theorem TrafficTransition.powered_of_powered {p q : ProtoState} (h : TrafficTransition p q)
    (hq : q = .poweredIdle ∨ q = .commandMode ∨ q = .normalOperation) :
    p = .poweredIdle ∨ p = .commandMode ∨ p = .normalOperation := by
  cases h with
  | same => exact hq
  | lost => simp at hq
  | enter | start => simp

theorem settleAfterTraffic_le {s : State} (h : s.settleRemaining ≤ s.cfg.tWrSettle) (i : Instr) :
    settleAfterTraffic s i ≤ s.cfg.tWrSettle := by
  unfold settleAfterTraffic
  split
  · exact le_rfl
  · exact h

section
variable {s u : State} {i : Instr} {new : List Event} {r : Response}

theorem State.Consistent.dropRequest (h : s.Consistent) : s.dropRequest.Consistent :=
  ⟨h.notUnpowered, h.poweredHigh, h.settleBound, h.addressKept, h.busCounted⟩

theorem State.Consistent.respond (h : s.Consistent) (r : Response) : (s.respond r).Consistent :=
  ⟨h.notUnpowered, h.poweredHigh, h.settleBound, h.addressKept, h.busCounted⟩

theorem Completion.consistent (hc : Completion s i new r u) (h : s.Consistent) : u.Consistent := by
  cases hc with
  | codec | refused => exact h
  | pwrcyc => exact ⟨by simp, by simp, by simp, h.addressKept,
      by simp [busTransactions_append, h.busCounted]⟩
  | traffic hi hnew hp => exact ⟨hp.ne_unpowered h.notUnpowered,
      fun hq => h.poweredHigh (hp.powered_of_powered hq), settleAfterTraffic_le h.settleBound i, h.addressKept,
      by simp [busTransactions_append, h.busCounted]⟩
  | sleep t =>
    refine ⟨?_, ?_, (Nat.sub_le _ _).trans h.settleBound, h.addressKept, by simp [h.busCounted]⟩
    · split
      · simp
      · exact h.notUnpowered
    · split
      · simp
      · exact h.poweredHigh
  | setaddr a => exact ⟨h.notUnpowered, h.poweredHigh, h.settleBound, by simp, h.busCounted⟩

end

/-- Settles O50: an idle step changes nothing, and each case of an operation keeps the five parts. -/
theorem everyStepKeepsConsistency : Obligations.EveryStepKeepsConsistency := by
  unfold Obligations.EveryStepKeepsConsistency
  intro s t hs hstep
  obtain ⟨-, rfl⟩ | ⟨i, new, r, u, -, rfl, hu⟩ := step_eq_next hstep
  · exact hs
  · exact (hu.consistent hs.dropRequest).respond r

/-- Settles O49: at reset nothing is owed, counted or changed, and the tracked state is `Unknown`. -/
theorem resetIsConsistent : Obligations.ResetIsConsistent := by
  unfold Obligations.ResetIsConsistent
  exact {
    notUnpowered := by decide
    poweredHigh := by decide
    settleBound := Nat.zero_le _
    addressKept := fun _ => rfl
    busCounted := rfl }

end Sys2Proof.Machine
end

section
/-! The claims on single operations and single steps: each state field of R22 to R27 read off the cases of
`Completion`, the reset state, and the clauses of a step. -/

namespace Sys2Proof.Machine

/-! What every operation answers. -/

theorem Status.code_le (x : Status) : x.code ≤ 4 := by cases x <;> decide

/-- R113: every sub-cause belongs to an error class. -/
theorem Response.status_eq_ok_iff (r : Response) : r.status = .ok ↔ r.error = none := by
  obtain ⟨e, v⟩ := r
  cases e with
  | none => simp [Response.status]
  | some c => cases c <;> simp [Response.status, Cause.status]

/-- Settles O26: the frame of `Completion`, with the response on top. -/
theorem everyOperationAnswersExactlyOnce : Obligations.EveryOperationAnswersExactlyOnce := by
  unfold Obligations.EveryOperationAnswersExactlyOnce
  intro i s
  obtain ⟨new, r, u, hexec, hu⟩ := exec_completes s i
  exact ⟨u.respond r, r, new, hexec, congrArg (· ++ [r]) hu.responses_eq, hu.history_eq, hu.cfg_eq,
    hu.pending_eq, r.status.code_le, r.status_eq_ok_iff⟩

/-! The fault bit. -/

theorem Event.needsSettle_of_isBus {e : Event} (h : e.isBus = true) : e.needsSettle = true := by
  cases e with
  | write | read => rfl
  | power | wait => cases h

theorem Completion.hazardFault_iff {s u : State} {i : Instr} {new : List Event} {r : Response}
    (h : Completion s i new r u) : u.hazardFault = true ↔
      s.hazardFault = true ∨ (0 < s.settleRemaining ∧ ∃ e ∈ new, e.needsSettle = true) := by
  cases h with
  | codec | refused | setaddr => simp
  | sleep t => simp [Event.needsSettle]
  | pwrcyc => simp [Event.needsSettle]
  | traffic hi hnew hp =>
    obtain ⟨e, he, hbus⟩ := hnew.some_bus
    have hneeds : ∃ e ∈ new, e.needsSettle = true := ⟨e, he, Event.needsSettle_of_isBus hbus⟩
    simp [hneeds]

/-- Settles O28, case by case: PWRCYC and bus traffic check the hazard and need the settle, the other cases do
neither. -/
theorem hazardFaultIsSetExactlyByTrafficInTheSettle :
    Obligations.HazardFaultIsSetExactlyByTrafficInTheSettle := by
  unfold Obligations.HazardFaultIsSetExactlyByTrafficInTheSettle
  intro i s t new hexec hnew
  obtain ⟨r, u, rfl, hu⟩ := completion_of_history hexec hnew
  exact hu.hazardFault_iff

/-! The bus address and its changed bit. -/

/-- Settles O29: only bus traffic has bus events, and `IsTraffic` holds them to the address. -/
theorem busTrafficUsesTheBusAddress : Obligations.BusTrafficUsesTheBusAddress := by
  unfold Obligations.BusTrafficUsesTheBusAddress
  intro i s t new hexec hnew
  obtain ⟨r, u, rfl, hu⟩ := completion_of_history hexec hnew
  cases hu with
  | codec | refused => simp
  | pwrcyc | sleep => simp [Event.busAddress]
  | setaddr a => exact ⟨by simp, fun h => absurd rfl (h a)⟩
  | traffic hi htraffic =>
    refine ⟨fun e he a ha => ?_, fun _ => rfl⟩
    obtain haddr | ⟨t, rfl⟩ := htraffic.each e he
    · exact Option.some.inj (ha.symm.trans haddr)
    · cases ha

/-- R24: the changed bit after an operation. -/
theorem Completion.addrChanged_iff {s u : State} {i : Instr} {new : List Event} {r : Response}
    (h : Completion s i new r u) : u.addrChanged = true ↔
      s.addrChanged = true ∨ ((∃ a : Nat, i = .setaddr a) ∧ r.error = none) := by
  cases h with
  | refused | pwrcyc | sleep | setaddr => simp
  | codec hi =>
    have hne : ¬ ∃ a, i = .setaddr a := by rintro ⟨a, rfl⟩; cases hi
    simp [hne]
  | traffic hi =>
    have hne : ¬ ∃ a, i = .setaddr a := by rintro ⟨a, rfl⟩; cases hi
    simp [hne]

/-- R93: under `enforce` a SETADDR is refused once the address has been changed. -/
theorem exec_setaddr_refused {s : State} (hguard : s.cfg.modeGuard = .enforce)
    (hchanged : s.addrChanged = true) (a : Nat) :
    ∃ c : Cause, exec (.setaddr a) s = .next (s.respond ⟨some c, none⟩) := by
  obtain ⟨new, r, u, hexec, hu⟩ := exec_completes s (.setaddr a)
  cases hu with
  | refused => exact ⟨_, hexec⟩
  | setaddr _ hfree => exact absurd ⟨hguard, hchanged⟩ hfree
  | codec hi => cases hi
  | traffic hi => cases hi

/-- Settles O30. -/
theorem addressChangedBitRecordsTheOneChange : Obligations.AddressChangedBitRecordsTheOneChange := by
  unfold Obligations.AddressChangedBitRecordsTheOneChange
  refine ⟨fun i s t r hexec hr => ?_, fun s a hguard hchanged => exec_setaddr_refused hguard hchanged a⟩
  obtain ⟨new, u, rfl, hu⟩ := completion_of_responses hexec hr
  exact hu.addrChanged_iff

/-! The power line and the settle owed. -/

/-- Settles O31: only the case of PWRCYC has power events or writes the level. -/
theorem onlyPwrcycDrivesThePowerLine : Obligations.OnlyPwrcycDrivesThePowerLine := by
  unfold Obligations.OnlyPwrcycDrivesThePowerLine
  intro i s t new hexec hnew hi
  obtain ⟨r, u, rfl, hu⟩ := completion_of_history hexec hnew
  cases hu with
  | pwrcyc => exact absurd rfl hi
  | codec | refused | setaddr => exact ⟨rfl, by simp⟩
  | sleep t =>
    refine ⟨rfl, ?_⟩
    rintro e l he rfl
    cases List.mem_singleton.mp he
  | traffic _ htraffic =>
    refine ⟨rfl, ?_⟩
    rintro e l he rfl
    obtain haddr | ⟨t, ht⟩ := htraffic.each _ he
    · cases haddr
    · cases ht

theorem settleAfterTraffic_of_ne {s : State} {i : Instr} (h : ∀ r v, i ≠ .wrreg r v) :
    settleAfterTraffic s i = s.settleRemaining := by
  unfold settleAfterTraffic
  split
  · exact absurd rfl (h _ _)
  · rfl

/-- Settles O32: without traffic nothing is owed anew; with traffic the operation is none of SLEEP and PWRCYC,
and it has new events. -/
theorem settleIsOwedByWritesAndPaidBySleep : Obligations.SettleIsOwedByWritesAndPaidBySleep := by
  unfold Obligations.SettleIsOwedByWritesAndPaidBySleep
  intro i s t new hexec hnew
  obtain ⟨r, u, rfl, hu⟩ := completion_of_history hexec hnew
  cases hu with
  | pwrcyc | sleep | setaddr => rfl
  | codec hi =>
    split
    case h_2 | h_3 => cases hi
    case h_1 | h_4 => rfl
  | refused hi =>
    split
    case h_2 | h_3 => simp [bytesWritten, bytesRead] at hi
    case h_1 | h_4 => rfl
  | traffic hi htraffic =>
    split
    case h_2 | h_3 => cases hi
    case h_1 => exact (if_neg htraffic.ne_nil).symm
    case h_4 hne _ _ => exact settleAfterTraffic_of_ne hne

/-! Reset and steps. -/

/-- Settles O47: the fields as `State.reset` gives them. -/
theorem resetValuesAreTheSpecs : Obligations.ResetValuesAreTheSpecs := by
  unfold Obligations.ResetValuesAreTheSpecs
  exact ⟨rfl, rfl, rfl, rfl, rfl, rfl, rfl, rfl, rfl⟩

theorem State.dropRequest_eq {s : State} {q : Request} {qs : List Request} (h : s.pending = q :: qs) :
    s.dropRequest = { s with pending := qs } := by
  simp [State.dropRequest, h]

/-- Settles O52: a step is decided by the first request and by what that request asks for. -/
theorem stepPerformsTheNextRequest : Obligations.StepPerformsTheNextRequest := by
  unfold Obligations.StepPerformsTheNextRequest
  refine ⟨fun s h => step_of_no_request h, fun s i q h => ?_, fun s bytes rest i q h hd => ?_,
    fun s bytes e q h hd => ?_⟩
  · rw [step_of_request h rfl, State.dropRequest_eq h]
  · have hq : requestedOp s.cfg (.frame bytes) = .ok i := by simp only [requestedOp, hd]
    rw [step_of_request h hq, State.dropRequest_eq h]
  · have hq : requestedOp s.cfg (.frame bytes) = .error e := by simp only [requestedOp, hd]
    exact step_of_no_command h hq

/-- Settles O53: the frame of `Completion`, from the state without the request. -/
theorem aStepAnswersOneRequest : Obligations.AStepAnswersOneRequest := by
  unfold Obligations.AStepAnswersOneRequest
  intro s t hstep
  obtain ⟨hnone, rfl⟩ | ⟨i, new, r, u, hsome, rfl, hu⟩ := step_eq_next hstep
  · simp [hnone]
  · have hpos : 0 < s.pending.length := List.length_pos_of_ne_nil hsome
    have hpending : u.pending = s.pending.drop 1 := hu.pending_eq
    have hresponses : u.responses = s.responses := hu.responses_eq
    have hhistory : u.history = s.history ++ new := hu.history_eq
    refine ⟨hu.cfg_eq, hpending, by simp [hresponses], by simp [hhistory], ?_⟩
    simp only [State.respond_responses, State.respond_pending, hresponses, hpending, List.length_append,
      List.length_singleton, List.length_drop]
    omega

end Sys2Proof.Machine
end

section
/-! Noninterference (R28, R34): events and responses put in front of those of a state pass through every
operation unread. -/

namespace Sys2Proof.Machine

/-- `s` as it would be had the run before it performed the events `h` and given the responses `rs` first. -/
def State.withPast (s : State) (h : List Event) (rs : List Response) : State :=
  { s with history := h ++ s.history, responses := rs ++ s.responses }

/-- A result with the same past put in front. -/
def pastResult (h : List Event) (rs : List Response) : Result → Result
  | .next s => .next (s.withPast h rs)
  | .fault f => .fault f
  | .refused r => .refused r

section
variable (s : State) (h : List Event) (rs : List Response)

/-! The fields operations read. -/

@[simp] theorem State.withPast_ps : (s.withPast h rs).ps = s.ps := rfl
@[simp] theorem State.withPast_busAddr : (s.withPast h rs).busAddr = s.busAddr := rfl
@[simp] theorem State.withPast_addrChanged : (s.withPast h rs).addrChanged = s.addrChanged := rfl
@[simp] theorem State.withPast_settleRemaining : (s.withPast h rs).settleRemaining = s.settleRemaining := rfl
@[simp] theorem State.withPast_cfg : (s.withPast h rs).cfg = s.cfg := rfl
@[simp] theorem guard_withPast (p : ProtoState) : guard p (s.withPast h rs) = guard p s := rfl

/-! Each update and each primitive commutes with the past. -/

@[simp] theorem State.withPast_setPs (p : ProtoState) :
    (s.withPast h rs).setPs p = (s.setPs p).withPast h rs := rfl

@[simp] theorem State.withPast_setSettle (t : Nat) :
    (s.withPast h rs).setSettle t = (s.setSettle t).withPast h rs := rfl

@[simp] theorem State.withPast_setAddr (a : BusAddr) :
    (s.withPast h rs).setAddr a = (s.setAddr a).withPast h rs := rfl

@[simp] theorem State.withPast_respond (r : Response) :
    (s.withPast h rs).respond r = (s.respond r).withPast h rs := by
  simp [State.withPast, State.respond]

@[simp] theorem hazardCheck_withPast : hazardCheck (s.withPast h rs) = (hazardCheck s).withPast h rs := by
  simp [hazardCheck_eq, State.withPast]

@[simp] theorem wait_withPast (t : Nat) : wait t (s.withPast h rs) = (wait t s).withPast h rs := by
  simp [wait_eq, State.withPast]

@[simp] theorem setPower_withPast (l : Level) :
    setPower l (s.withPast h rs) = (setPower l s).withPast h rs := by
  simp [setPower_eq, State.withPast]

theorem replyAt_withPast (k : Nat) : (s.withPast h rs).replyAt k = s.replyAt k := rfl

@[simp] theorem busWrite_withPast (bytes : List Byte) : busWrite bytes (s.withPast h rs) =
    ((busWrite bytes s).1, (busWrite bytes s).2.withPast h rs) := by
  simp only [busWrite_eq, replyAt_withPast]
  simp [State.withPast]

@[simp] theorem busRead_withPast (n : Nat) : busRead n (s.withPast h rs) =
    ((busRead n s).1, (busRead n s).2.withPast h rs) := by
  simp only [busRead_eq, replyAt_withPast]
  simp [State.withPast]

@[simp] theorem finish_withPast (v : Option Value) :
    finish v (s.withPast h rs) = pastResult h rs (finish v s) :=
  congrArg Host.Outcome.next (s.withPast_respond h rs _)

@[simp] theorem raise_withPast (c : Cause) : raise c (s.withPast h rs) = pastResult h rs (raise c s) :=
  congrArg Host.Outcome.next (s.withPast_respond h rs _)

/-! So does each operation. -/

theorem execPwrcyc_withPast : execPwrcyc (s.withPast h rs) = pastResult h rs (execPwrcyc s) := by
  simp [execPwrcyc]

theorem execStartcm_withPast : execStartcm (s.withPast h rs) = pastResult h rs (execStartcm s) := by
  simp only [execStartcm, guard_withPast]
  cases guard .poweredIdle s with
  | some c => simp
  | none =>
    simp only [hazardCheck_withPast, busWrite_withPast, State.withPast_cfg]
    obtain ⟨res, u⟩ := busWrite (frameCmd1 (hazardCheck s).cfg .startCm) (hazardCheck s)
    cases res with
    | fail => simp
    | ok => by_cases hps : (hazardCheck s).ps = .poweredIdle <;> simp [hps]

theorem execStartnom_withPast : execStartnom (s.withPast h rs) = pastResult h rs (execStartnom s) := by
  simp only [execStartnom, guard_withPast]
  cases guard .commandMode s with
  | some c => simp
  | none =>
    simp only [hazardCheck_withPast, busWrite_withPast, State.withPast_cfg]
    obtain ⟨res, u⟩ := busWrite (frameCmd1 (hazardCheck s).cfg .startNom) (hazardCheck s)
    cases res with
    | fail => simp
    | ok => by_cases hps : (hazardCheck s).ps = .commandMode <;> simp [hps]

theorem execRdreg_withPast (r : Nat) : execRdreg r (s.withPast h rs) = pastResult h rs (execRdreg r s) := by
  by_cases hr : s.cfg.nreg ≤ r
  · simp [execRdreg, hr]
  simp only [execRdreg, guard_withPast, State.withPast_cfg, hr, if_false]
  cases guard .commandMode s with
  | some c => simp
  | none =>
    simp only [hazardCheck_withPast, busWrite_withPast, State.withPast_cfg]
    obtain ⟨res, u⟩ := busWrite (frameCmd1 (hazardCheck s).cfg (.read r)) (hazardCheck s)
    cases res with
    | fail => simp
    | ok =>
      simp only [wait_withPast, busRead_withPast, State.withPast_cfg]
      obtain ⟨res, v⟩ := busRead 3 (wait u.cfg.tRdDelay u)
      split
      next st d1 d0 _ heq =>
        cases heq
        by_cases hst : st = v.cfg.statusOk <;> simp [hst]
      next hne heq =>
        cases heq
        simp only [raise_withPast]

theorem execWrreg_withPast (r v : Nat) :
    execWrreg r v (s.withPast h rs) = pastResult h rs (execWrreg r v s) := by
  by_cases hr : s.cfg.nreg ≤ r
  · simp [execWrreg, hr]
  by_cases hv : 0xFFFF < v
  · simp [execWrreg, hr, hv]
  simp only [execWrreg, guard_withPast, State.withPast_cfg, hr, hv, if_false]
  cases guard .commandMode s with
  | some c => simp
  | none =>
    simp only [hazardCheck_withPast, busWrite_withPast, State.withPast_cfg]
    obtain ⟨res, u⟩ := busWrite (frameCmd3 (hazardCheck s).cfg r (BitVec.ofNat 16 v)) (hazardCheck s)
    cases res <;> simp

theorem execRdsample_withPast : execRdsample (s.withPast h rs) = pastResult h rs (execRdsample s) := by
  simp only [execRdsample, guard_withPast]
  cases guard .normalOperation s with
  | some c => simp
  | none =>
    simp only [hazardCheck_withPast, busRead_withPast]
    obtain ⟨res, u⟩ := busRead 2 (hazardCheck s)
    split
    next heq =>
      cases heq
      simp
    next hne heq =>
      cases heq
      simp only [raise_withPast]

theorem execSleep_withPast (t : Nat) : execSleep t (s.withPast h rs) = pastResult h rs (execSleep t s) := by
  by_cases ht : (wait t s).ps = .poweredIdle ∧ 0 < t <;> simp [execSleep, ht]

theorem execSetaddr_withPast (a : Nat) :
    execSetaddr a (s.withPast h rs) = pastResult h rs (execSetaddr a s) := by
  by_cases ha : 0x7F < a
  · simp [execSetaddr, ha]
  by_cases hc : s.cfg.modeGuard = .enforce ∧ s.addrChanged = true <;> simp [execSetaddr, ha, hc]

theorem exec_codec_withPast {i : Instr} (hi : isCodec i = true) :
    exec i (s.withPast h rs) = pastResult h rs (exec i s) := by
  obtain ⟨r, hr⟩ := exec_codec hi
  rw [hr, hr, State.withPast_respond]
  rfl

/-- An operation after more of a run does what it did, after the same. -/
theorem exec_withPast (i : Instr) : exec i (s.withPast h rs) = pastResult h rs (exec i s) := by
  cases i with
  | pwrcyc => exact execPwrcyc_withPast s h rs
  | startcm => exact execStartcm_withPast s h rs
  | startnom => exact execStartnom_withPast s h rs
  | rdreg r => exact execRdreg_withPast s h rs r
  | wrreg r v => exact execWrreg_withPast s h rs r v
  | rdsample => exact execRdsample_withPast s h rs
  | sleep t => exact execSleep_withPast s h rs t
  | setaddr a => exact execSetaddr_withPast s h rs a
  | encCfg1 | decCfg1 | encCfg2 | decCfg2 | encBridge | decBridge | decFactid | encGain | decGain =>
    exact exec_codec_withPast s h rs rfl

end

/-- `s` as it would be had nothing been performed or answered before it. -/
def State.withoutPast (s : State) : State := { s with history := [], responses := [] }

theorem State.withoutPast_withPast (s : State) (h : List Event) (rs : List Response) :
    s.withoutPast.withPast h rs = { s with history := h, responses := rs } := by
  simp [State.withoutPast, State.withPast]

/-- Settles O41: the operation is performed from the state without a past; with any past in front, the actual
one or another, it does the same. -/
theorem historyAndResponsesAreNeverRead : Obligations.HistoryAndResponsesAreNeverRead := by
  unfold Obligations.HistoryAndResponsesAreNeverRead
  intro i s t r new h rs hexec hnew hr
  obtain ⟨t₀, hfresh⟩ := exec_answers_next s.withoutPast i
  have hpast (h : List Event) (rs : List Response) : exec i { s with history := h, responses := rs } =
      .next (t₀.withPast h rs) := by
    rw [← State.withoutPast_withPast, exec_withPast, hfresh]
    rfl
  cases hexec.symm.trans (hpast s.history s.responses)
  cases List.append_cancel_left hnew
  rw [hpast h rs, ← List.append_cancel_left hr]
  rfl

end Sys2Proof.Machine
end

section
/-! Command bytes and command frames (30_encoding.md R57 to R60): with the source's codes a byte decodes to the
command whose byte it is, and a byte string decodes to the operation whose frame it begins with. -/

namespace Sys2Proof.Machine

/-! The data bytes of a frame are those of the value they make up (R43). -/

theorem hiByte_bigEndian (hi lo : Byte) : hiByte (bigEndian hi lo) = hi := by
  have hhi := hi.isLt
  have hlo := lo.isLt
  rw [bigEndian_eq_ofNat, hiByte_ofNat (by omega)]
  apply BitVec.eq_of_toNat_eq
  rw [BitVec.toNat_ofNat]
  omega

theorem loByte_bigEndian (hi lo : Byte) : loByte (bigEndian hi lo) = lo := by
  have hlo := lo.isLt
  rw [bigEndian_eq_ofNat, loByte_ofNat]
  apply BitVec.eq_of_toNat_eq
  rw [BitVec.toNat_ofNat]
  omega

end Sys2Proof.Machine

namespace Sys2Proof

/-! Command bytes. -/

/-- A command names a register of the device, if it names one (R57). -/
def Command.inRange (c : Config) : Command → Prop
  | .read r => r < c.nreg
  | .write r => r < c.nreg
  | .startCm => True
  | .startNom => True

section
variable {c : Config} (hc : c.hasSourceCodes = true)
include hc

/-- R57 with the source's literals in place of the parameters. -/
theorem commandOf_sourceCodes (b : Byte) : commandOf c b =
    if b.toNat < 20 then some (.read b.toNat)
    else if 0x40 ≤ b.toNat ∧ b.toNat < 0x40 + 20 then some (.write (b.toNat - 0x40))
    else if b = 0xA0 then some .startCm
    else if b = 0x80 then some .startNom
    else none := by
  obtain ⟨hNreg, hWr, hCm, hNom, -⟩ := Config.hasSourceCodes_iff.mp hc
  simp only [commandOf, hNreg, hWr, hCm, hNom]

/-- The four ranges of command bytes are disjoint, so every command is read back from its byte. -/
theorem commandOf_byte {cmd : Command} (h : cmd.inRange c) : commandOf c (cmd.byte c) = some cmd := by
  obtain ⟨hNreg, hWr, hCm, hNom, -⟩ := Config.hasSourceCodes_iff.mp hc
  rw [commandOf_sourceCodes hc]
  cases cmd with
  | read r =>
    have hr : r < 20 := hNreg ▸ h
    have hb : (Command.byte c (.read r)).toNat = r := Nat.mod_eq_of_lt (by omega)
    simp [hb, hr]
  | write r =>
    have hr : r < 20 := hNreg ▸ h
    have hb : (Command.byte c (.write r)).toNat = 0x40 + r := by
      rw [Command.byte, hWr]
      exact Nat.mod_eq_of_lt (by omega)
    rw [hb, if_neg (by omega), if_pos (by omega), Nat.add_sub_cancel_left]
  | startCm => simp [Command.byte, hCm]
  | startNom => simp [Command.byte, hNom]

/-- A byte decodes to no command but the one whose byte it is. -/
theorem inRange_and_byte_of_commandOf {b : Byte} {cmd : Command} (h : commandOf c b = some cmd) :
    cmd.inRange c ∧ cmd.byte c = b := by
  obtain ⟨hNreg, hWr, hCm, hNom, -⟩ := Config.hasSourceCodes_iff.mp hc
  rw [commandOf_sourceCodes hc] at h
  split at h
  next hb =>
    cases h
    exact ⟨hb.trans_eq hNreg.symm, by simp [Command.byte]⟩
  split at h
  next hb =>
    cases h
    refine ⟨?_, ?_⟩
    · rw [Command.inRange, hNreg]
      omega
    · simp [Command.byte, hWr, Nat.add_sub_cancel' hb.1]
  split at h
  next hb =>
    cases h
    exact ⟨trivial, hCm.trans hb.symm⟩
  split at h
  next hb =>
    cases h
    exact ⟨trivial, hNom.trans hb.symm⟩
  cases h

end

/-! Command frames. -/

/-- R59, R60: the operations with a command frame, each with its frame. -/
inductive HasFrame (c : Config) : Instr → List Byte → Prop where
  | startcm : HasFrame c .startcm (frameCmd1 c .startCm)
  | startnom : HasFrame c .startnom (frameCmd1 c .startNom)
  | rdreg (r : Nat) : HasFrame c (.rdreg r) (frameCmd1 c (.read r))
  | wrreg (r v : Nat) : HasFrame c (.wrreg r v) (frameCmd3 c r (BitVec.ofNat 16 v))

theorem encode_eq_some {c : Config} {i : Instr} {frame : List Byte} :
    encode c i = some frame ↔ HasFrame c i frame := by
  constructor
  · intro h
    cases i with
    | startcm => cases h; exact .startcm
    | startnom => cases h; exact .startnom
    | rdreg r => cases h; exact .rdreg r
    | wrreg r v => cases h; exact .wrreg r v
    | _ => cases h
  · rintro (_ | _ | _ | _) <;> rfl

theorem encode_isSome {c : Config} {i : Instr} : (encode c i).isSome = true ↔
    i = .startcm ∨ i = .startnom ∨ (∃ r, i = .rdreg r) ∨ ∃ r v, i = .wrreg r v := by
  rw [Option.isSome_iff_exists]
  constructor
  · rintro ⟨frame, h⟩
    cases encode_eq_some.mp h <;> simp
  · rintro (rfl | rfl | ⟨r, rfl⟩ | ⟨r, v, rfl⟩) <;> exact ⟨_, rfl⟩

/-! What `decode` does with the command its first byte holds. -/

section
variable {c : Config} {b : Byte} (bytes : List Byte)

theorem decode_of_none (h : commandOf c b = none) : decode c (b :: bytes) = .error (.notACommand b) := by
  simp only [decode, h]

theorem decode_of_read {r : Nat} (h : commandOf c b = some (.read r)) :
    decode c (b :: bytes) = .ok (.rdreg r, bytes) := by
  simp only [decode, h]

theorem decode_of_startCm (h : commandOf c b = some .startCm) :
    decode c (b :: bytes) = .ok (.startcm, bytes) := by
  simp only [decode, h]

theorem decode_of_startNom (h : commandOf c b = some .startNom) :
    decode c (b :: bytes) = .ok (.startnom, bytes) := by
  simp only [decode, h]

theorem decode_of_write {r : Nat} (h : commandOf c b = some (.write r)) (hi lo : Byte) :
    decode c (b :: hi :: lo :: bytes) = .ok (.wrreg r (Machine.bigEndian hi lo).toNat, bytes) := by
  simp only [decode, h]

end

/-- A write command without its two data bytes is no frame (R60). -/
theorem exists_data_bytes_of_decode_write {c : Config} {b : Byte} {bytes rest : List Byte} {i : Instr} {r : Nat}
    (h : commandOf c b = some (.write r)) (hd : decode c (b :: bytes) = .ok (i, rest)) :
    ∃ hi lo : Byte, bytes = hi :: lo :: rest := by
  match bytes with
  | [] => simp [decode, h] at hd
  | [_] => simp [decode, h] at hd
  | hi :: lo :: bytes' =>
    rw [decode_of_write bytes' h] at hd
    cases hd
    exact ⟨hi, lo, rfl⟩

/-- What decodes begins with a command byte (R58). -/
theorem exists_command_of_decode {c : Config} {bytes rest : List Byte} {i : Instr}
    (h : decode c bytes = .ok (i, rest)) :
    ∃ (b : Byte) (bytes' : List Byte) (cmd : Command), bytes = b :: bytes' ∧ commandOf c b = some cmd := by
  cases bytes with
  | nil => cases h
  | cons b bytes' =>
    cases hcmd : commandOf c b with
    | none => cases (decode_of_none bytes' hcmd).symm.trans h
    | some cmd => exact ⟨b, bytes', cmd, rfl, hcmd⟩

section
variable {c : Config} (hc : c.hasSourceCodes = true)
include hc

/-- The frame of a well-formed operation is read back as that operation, whatever follows it. -/
theorem decode_encode {i : Instr} {frame : List Byte} (hwf : i.wellFormed c = true)
    (henc : encode c i = some frame) (rest : List Byte) : decode c (frame ++ rest) = .ok (i, rest) := by
  cases encode_eq_some.mp henc with
  | startcm => exact decode_of_startCm rest (commandOf_byte hc (cmd := .startCm) trivial)
  | startnom => exact decode_of_startNom rest (commandOf_byte hc (cmd := .startNom) trivial)
  | rdreg r =>
    have hr : r < c.nreg := of_decide_eq_true hwf
    exact decode_of_read rest (commandOf_byte hc (cmd := .read r) hr)
  | wrreg r v =>
    simp only [Instr.wellFormed, Bool.and_eq_true, decide_eq_true_eq] at hwf
    obtain ⟨hr, hv⟩ := hwf
    have hvalue : (Machine.bigEndian (Machine.hiByte (BitVec.ofNat 16 v))
        (Machine.loByte (BitVec.ofNat 16 v))).toNat = v := by
      rw [Machine.bigEndian_hiByte_loByte]
      exact Nat.mod_eq_of_lt (by omega)
    have hdec := decode_of_write rest (commandOf_byte hc (cmd := .write r) hr)
      (Machine.hiByte (BitVec.ofNat 16 v)) (Machine.loByte (BitVec.ofNat 16 v))
    rwa [hvalue] at hdec

/-- What decodes is a well-formed operation, and the bytes consumed are its frame. -/
theorem encode_decode {bytes rest : List Byte} {i : Instr} (h : decode c bytes = .ok (i, rest)) :
    i.wellFormed c = true ∧ ∃ frame : List Byte, encode c i = some frame ∧ bytes = frame ++ rest := by
  obtain ⟨b, bytes', cmd, rfl, hcmd⟩ := exists_command_of_decode h
  obtain ⟨hrange, rfl⟩ := inRange_and_byte_of_commandOf hc hcmd
  cases cmd with
  | read r =>
    cases (decode_of_read bytes' hcmd).symm.trans h
    have hr : r < c.nreg := hrange
    exact ⟨decide_eq_true hr, _, rfl, rfl⟩
  | startCm =>
    cases (decode_of_startCm bytes' hcmd).symm.trans h
    exact ⟨rfl, _, rfl, rfl⟩
  | startNom =>
    cases (decode_of_startNom bytes' hcmd).symm.trans h
    exact ⟨rfl, _, rfl, rfl⟩
  | write r =>
    obtain ⟨hi, lo, rfl⟩ := exists_data_bytes_of_decode_write hcmd h
    cases (decode_of_write rest hcmd hi lo).symm.trans h
    have hr : r < c.nreg := hrange
    have hv : (Machine.bigEndian hi lo).toNat ≤ 0xFFFF := Nat.le_of_lt_succ (Machine.bigEndian hi lo).isLt
    refine ⟨by simp [Instr.wellFormed, hr, hv], _, rfl, ?_⟩
    simp [frameCmd3, Machine.hiByte_bigEndian, Machine.loByte_bigEndian]

end

/-- Settles O44: `HasFrame` lists the operations with a frame, and `decode_encode` reads each frame back. -/
theorem decodingAnEncodedFrameGivesTheOperation : Obligations.DecodingAnEncodedFrameGivesTheOperation := by
  unfold Obligations.DecodingAnEncodedFrameGivesTheOperation
  exact fun c i hc hwf => ⟨encode_isSome, fun bytes rest henc => decode_encode hc hwf henc rest⟩

/-- Settles O45: the case of each command in `encode_decode`. -/
theorem encodingADecodedFrameGivesTheBytes : Obligations.EncodingADecodedFrameGivesTheBytes := by
  unfold Obligations.EncodingADecodedFrameGivesTheBytes
  exact fun c bytes rest i hc h => encode_decode hc h

/-- Settles O43: the bit patterns of R57 are the ranges of `commandOf`. -/
theorem commandBytesDecodeAsTabled : Obligations.CommandBytesDecodeAsTabled := by
  unfold Obligations.CommandBytesDecodeAsTabled
  intro b
  have hread : (b.toNat / 32 = 0b000 ∧ b.toNat % 32 ≤ 0x13) ↔ b.toNat < 20 := by omega
  have hwrite : (b.toNat / 32 = 0b010 ∧ b.toNat % 32 ≤ 0x13) ↔
      0x40 ≤ b.toNat ∧ b.toNat < 0x40 + 20 := by omega
  rw [commandOf_sourceCodes Config.thisHardware_hasSourceCodes]
  simp only [hread, hwrite]
  split
  next hb => rw [Nat.mod_eq_of_lt (by omega)]
  split
  next hb =>
    have hindex : b.toNat % 32 = b.toNat - 0x40 := by omega
    rw [hindex]
  rfl

/-! Words of the opcode table. -/

/-- A table word that begins with the frame of a well-formed operation decodes to it. -/
theorem decodeTableWord_of_encode {nbits w : Nat} {i : Instr} {frame rest : List Byte}
    (hwf : i.wellFormed Config.thisHardware = true) (henc : encode Config.thisHardware i = some frame)
    (hbytes : tableBytes nbits w = frame ++ rest) : decodeTableWord nbits w = some i := by
  simp only [decodeTableWord, hbytes, decode_encode Config.thisHardware_hasSourceCodes hwf henc]

/-- A table word whose first byte is no command decodes to nothing (R58). -/
theorem decodeTableWord_of_none {nbits w : Nat}
    (h : commandOf Config.thisHardware (BitVec.ofNat 8 (w % 2 ^ nbits)) = none) :
    decodeTableWord nbits w = none := by
  simp only [decodeTableWord, tableBytes, decode_of_none _ h]

/-- Settles O46: four words are frames written out, and the first byte of the other two is no command. -/
theorem tableWordsDecode : Obligations.TableWordsDecode := by
  unfold Obligations.TableWordsDecode
  exact ⟨decodeTableWord_of_encode (rest := [0, 0]) rfl rfl rfl,
    decodeTableWord_of_encode (rest := [0, 0]) rfl rfl rfl,
    decodeTableWord_of_encode (rest := [0, 0]) rfl rfl rfl,
    decodeTableWord_of_encode (rest := []) rfl rfl rfl,
    decodeTableWord_of_none (by decide), decodeTableWord_of_none (by decide)⟩

/-! The preamp gain table. -/

theorem preampGainOf_code (g : PreampGain) : preampGainOf (BitVec.ofNat 3 g.code) = g := by cases g <;> rfl

theorem code_preampGainOf (c : BitVec 3) : (preampGainOf c).code = c.toNat := by
  revert c; decide

/-- Settles O18: `preampGainOf` and `PreampGain.code` are inverse to each other. -/
theorem preampGainTableIsTheSpecs : Obligations.PreampGainTableIsTheSpecs := by
  unfold Obligations.PreampGainTableIsTheSpecs
  refine ⟨⟨rfl, rfl, rfl, rfl, rfl, rfl, rfl, rfl⟩, fun c g => ⟨?_, fun h => ?_⟩⟩
  · rintro rfl
    exact code_preampGainOf c
  · rw [← preampGainOf_code g, h, BitVec.ofNat_toNat, BitVec.setWidth_eq]

end Sys2Proof
end

section
/-! What an operation puts on the bus (30_encoding.md R58, R63), said once: `exec_emits` gives the new events of
every operation in every state as one of the forms of `Emits`. What it writes is its own command frame. -/

namespace Sys2Proof.Machine

/-- The events an operation can perform from `s`. Those of the bus are a first part of the exchange R63 gives
the operation: it writes its own command frame, and it reads after that frame was taken or, in RDSAMPLE, without
one. -/
inductive Emits (s : State) : Instr → List Event → Prop where
  /-- Codec operations, SETADDR and refused operations perform nothing (R93, R103, R114). -/
  | nothing (i : Instr) : Emits s i []
  /-- R86 -/
  | powerCycle : Emits s .pwrcyc [.power .low, .wait s.cfg.tPwrLow, .power .high, .wait s.cfg.tPwrHigh]
  /-- R92 -/
  | sleep (t : Nat) : Emits s (.sleep t) [.wait t]
  /-- R59, R60: the frame alone, be it taken or not. -/
  | frame {i : Instr} {bytes : List Byte} (hwf : i.wellFormed s.cfg = true)
      (henc : encode s.cfg i = some bytes) (res : WriteResult) : Emits s i [.write s.busAddr bytes res]
  /-- R87 -/
  | settled : Emits s .startcm [.write s.busAddr (frameCmd1 s.cfg .startCm) .ok, .wait s.cfg.tCmSettle]
  /-- R89 -/
  | exchange {r : Nat} (hr : r < s.cfg.nreg) (res : ReadResult) : Emits s (.rdreg r)
      [.write s.busAddr (frameCmd1 s.cfg (.read r)) .ok, .wait s.cfg.tRdDelay, .read s.busAddr 3 res]
  /-- R91 -/
  | sample (res : ReadResult) : Emits s .rdsample [.read s.busAddr 2 res]

/-- The result `res` of performing `i` from `s` is a next state that only adds events of `Emits`. -/
def EmitsOnly (s : State) (i : Instr) (res : Result) : Prop :=
  ∃ (t : State) (new : List Event), res = .next t ∧ t.history = s.history ++ new ∧ Emits s i new

section
variable {s u : State} {i : Instr} {new : List Event}

theorem emitsOnly_finish {v : Option Value} (hu : u.history = s.history ++ new) (h : Emits s i new) :
    EmitsOnly s i (finish v u) := ⟨_, _, rfl, hu, h⟩

theorem emitsOnly_raise {c : Cause} (hu : u.history = s.history ++ new) (h : Emits s i new) :
    EmitsOnly s i (raise c u) := ⟨_, _, rfl, hu, h⟩

theorem emitsOnly_refused (c : Cause) : EmitsOnly s i (raise c s) :=
  emitsOnly_raise (List.append_nil _).symm (.nothing i)

end

section
variable (s : State)

theorem execStartcm_emitsOnly : EmitsOnly s .startcm (execStartcm s) := by
  unfold execStartcm
  split
  · exact emitsOnly_refused _
  · simp only [hazardCheck_eq_afterTraffic, busWrite_afterTraffic]
    cases writeResult (s.replyAt _) with
    | fail => exact emitsOnly_raise rfl (.frame rfl rfl _)
    | ok =>
      simp only [wait_afterTraffic]
      exact emitsOnly_finish rfl .settled

theorem execStartnom_emitsOnly : EmitsOnly s .startnom (execStartnom s) := by
  unfold execStartnom
  split
  · exact emitsOnly_refused _
  · simp only [hazardCheck_eq_afterTraffic, busWrite_afterTraffic]
    cases writeResult (s.replyAt _) with
    | fail => exact emitsOnly_raise rfl (.frame rfl rfl _)
    | ok => exact emitsOnly_finish rfl (.frame rfl rfl _)

theorem execRdreg_emitsOnly (r : Nat) : EmitsOnly s (.rdreg r) (execRdreg r s) := by
  unfold execRdreg
  split
  · exact emitsOnly_refused _
  next hr =>
  have hr : r < s.cfg.nreg := Nat.lt_of_not_le hr
  have hwf : Instr.wellFormed s.cfg (.rdreg r) = true := decide_eq_true hr
  split
  · exact emitsOnly_refused _
  · simp only [hazardCheck_eq_afterTraffic, busWrite_afterTraffic]
    cases writeResult (s.replyAt _) with
    | fail => exact emitsOnly_raise rfl (.frame hwf rfl _)
    | ok =>
      simp only [wait_afterTraffic, busRead_afterTraffic]
      generalize readResult 3 (s.replyAt _) = res
      split
      next heq =>
        cases heq
        split
        · exact emitsOnly_finish rfl (.exchange hr _)
        · exact emitsOnly_raise rfl (.exchange hr _)
      next heq =>
        cases heq
        exact emitsOnly_raise rfl (.exchange hr _)

theorem execWrreg_emitsOnly (r v : Nat) : EmitsOnly s (.wrreg r v) (execWrreg r v s) := by
  unfold execWrreg
  split
  · exact emitsOnly_refused _
  next hr =>
  split
  · exact emitsOnly_refused _
  next hv =>
  have hwf : Instr.wellFormed s.cfg (.wrreg r v) = true := by
    simpa [Instr.wellFormed] using And.intro hr hv
  split
  · exact emitsOnly_refused _
  · simp only [hazardCheck_eq_afterTraffic, busWrite_afterTraffic]
    cases writeResult (s.replyAt _) with
    | fail => exact emitsOnly_raise rfl (.frame hwf rfl _)
    | ok => exact emitsOnly_finish rfl (.frame hwf rfl _)

theorem execRdsample_emitsOnly : EmitsOnly s .rdsample (execRdsample s) := by
  unfold execRdsample
  split
  · exact emitsOnly_refused _
  · simp only [hazardCheck_eq_afterTraffic, busRead_afterTraffic]
    generalize readResult 2 (s.replyAt _) = res
    split
    all_goals
      rename_i heq
      cases heq
    · exact emitsOnly_finish rfl (.sample _)
    · exact emitsOnly_raise rfl (.sample _)

end

/-- Outside bus traffic the events are those of `Completion`. -/
theorem Completion.emits {s u : State} {i : Instr} {new : List Event} {r : Response}
    (h : Completion s i new r u) (hi : bytesWritten i + bytesRead i = 0) : Emits s i new := by
  cases h with
  | codec | refused | setaddr => exact .nothing _
  | pwrcyc => exact .powerCycle
  | sleep t => exact .sleep t
  | traffic hpos => exact absurd hi hpos.ne'

theorem exec_emitsOnly_of_silent {s : State} {i : Instr} (hi : bytesWritten i + bytesRead i = 0) :
    EmitsOnly s i (exec i s) := by
  obtain ⟨new, r, u, hexec, hu⟩ := exec_completes s i
  exact ⟨u.respond r, new, hexec, hu.history_eq, hu.emits hi⟩

theorem exec_emitsOnly (s : State) (i : Instr) : EmitsOnly s i (exec i s) := by
  cases i with
  | startcm => exact execStartcm_emitsOnly s
  | startnom => exact execStartnom_emitsOnly s
  | rdreg r => exact execRdreg_emitsOnly s r
  | wrreg r v => exact execWrreg_emitsOnly s r v
  | rdsample => exact execRdsample_emitsOnly s
  | pwrcyc | sleep | setaddr | encCfg1 | decCfg1 | encCfg2 | decCfg2 | encBridge | decBridge | decFactid
  | encGain | decGain => exact exec_emitsOnly_of_silent rfl

/-- The new events of every operation in every state. -/
theorem exec_emits {s t : State} {i : Instr} {new : List Event} (h : exec i s = .next t)
    (hnew : t.history = s.history ++ new) : Emits s i new := by
  obtain ⟨t', new', hexec, hnew', hemits⟩ := exec_emitsOnly s i
  cases h.symm.trans hexec
  exact List.append_cancel_left (hnew.symm.trans hnew') ▸ hemits

/-! What is written and what is read. -/

section
variable {s : State} {i : Instr} {new : List Event}

/-- R59, R60: nothing is written but the operation's own frame, and that only of a well-formed operation. -/
theorem Emits.written (h : Emits s i new) : new.filterMap Event.written = [] ∨
    ∃ bytes : List Byte, i.wellFormed s.cfg = true ∧ encode s.cfg i = some bytes ∧
      new.filterMap Event.written = [bytes] := by
  cases h with
  | nothing | powerCycle | sleep | sample => exact .inl rfl
  | frame hwf henc => exact .inr ⟨_, hwf, henc, rfl⟩
  | settled => exact .inr ⟨_, rfl, rfl, rfl⟩
  | exchange hr => exact .inr ⟨_, decide_eq_true hr, rfl, rfl⟩

/-- R61, R62: nothing is read but the reply R63 gives the operation. -/
theorem Emits.requested (h : Emits s i new) : new.filterMap Event.requested = [] ∨
    bytesRead i ≠ 0 ∧ new.filterMap Event.requested = [bytesRead i] := by
  cases h with
  | nothing | powerCycle | sleep | frame | settled => exact .inl rfl
  | exchange | sample => exact .inr ⟨by simp [bytesRead], rfl⟩

end

theorem length_of_encode {c : Config} {i : Instr} {bytes : List Byte} (h : encode c i = some bytes) :
    bytesWritten i ≠ 0 ∧ bytes.length = bytesWritten i := by
  cases encode_eq_some.mp h <;> exact ⟨by simp [bytesWritten], rfl⟩

/-- Settles O38: what is written is nothing or the frame, and what is read nothing or the reply. -/
theorem frameLengthsAreFixedPerOperation : Obligations.FrameLengthsAreFixedPerOperation := by
  unfold Obligations.FrameLengthsAreFixedPerOperation
  intro i s t new hexec hnew
  have hemits := exec_emits hexec hnew
  constructor
  · obtain hnone | ⟨bytes, -, henc, hframe⟩ := hemits.written
    · simp [hnone]
    · obtain ⟨hpos, hlen⟩ := length_of_encode henc
      simp [hframe, hlen, hpos]
  · obtain hnone | ⟨hpos, hreply⟩ := hemits.requested
    · simp [hnone]
    · simp [hreply, hpos]

/-- Settles O39: a frame that is written is the one `decode` reads back, so its first byte is a command. -/
theorem everyFrameSentBeginsWithACommand : Obligations.EveryFrameSentBeginsWithACommand := by
  unfold Obligations.EveryFrameSentBeginsWithACommand
  intro i s t new bytes hc hexec hnew hmem
  obtain hnone | ⟨frame, hwf, henc, hframe⟩ := (exec_emits hexec hnew).written
  · simp [hnone] at hmem
  · rw [hframe, List.mem_singleton] at hmem
    have hdecode := decode_encode hc hwf henc []
    rw [List.append_nil, ← hmem] at hdecode
    exact exists_command_of_decode hdecode

end Sys2Proof.Machine
end

section
/-! Bits of the configuration registers (20_memory.md R46, 41_config_codec.md R96 to R101): a placed code lies
in its field, so the fixed and reserved bits are what the encoders write there, and the decoders read no others. -/

namespace Sys2Proof.Machine

/-! Placed codes and masks. -/

/-- The word whose `width` bits from bit `lo` on are 1. -/
def mask (lo width : Nat) : Word := place (2 ^ width - 1) lo

theorem getLsbD_place (n lo i : Nat) :
    (place n lo).getLsbD i = (decide (i < 16) && decide (lo ≤ i) && n.testBit (i - lo)) := by
  rw [place_eq_ofNat, BitVec.getLsbD_ofNat, Nat.testBit_shiftLeft, Bool.and_assoc]

theorem getLsbD_mask (lo width i : Nat) :
    (mask lo width).getLsbD i = (decide (i < 16) && decide (lo ≤ i) && decide (i - lo < width)) := by
  rw [mask, getLsbD_place, Nat.testBit_two_pow_sub_one]

/-- A code that fits its field sets no bit outside it. -/
theorem place_and_mask {n width : Nat} (h : n < 2 ^ width) (lo : Nat) :
    place n lo &&& mask lo width = place n lo := by
  apply BitVec.eq_of_getLsbD_eq
  intro i hi
  rw [BitVec.getLsbD_and, getLsbD_place, getLsbD_mask]
  by_cases hw : i - lo < width
  · by_cases hlo : lo ≤ i <;> simp [hi, hlo, hw]
  · have hbit : n.testBit (i - lo) = false :=
      Nat.testBit_lt_two_pow (h.trans_le (Nat.pow_le_pow_right (by decide) (Nat.le_of_not_lt hw)))
    simp [hbit]

/-- A code that fits its field gives nothing to bits outside it. -/
theorem place_and_eq_zero {n width lo : Nat} {m : Word} (h : n < 2 ^ width) (hm : mask lo width &&& m = 0) :
    place n lo &&& m = 0 := by
  rw [← place_and_mask h, BitVec.and_assoc, hm]
  exact BitVec.and_zero

/-- Placing a field where it was cut from gives its bits of the word. -/
theorem place_field (v : Word) (lo width : Nat) : place (field v lo width).toNat lo = v &&& mask lo width := by
  apply BitVec.eq_of_getLsbD_eq
  intro i hi
  rw [BitVec.getLsbD_and, getLsbD_place, getLsbD_mask, BitVec.testBit_toNat, field_getLsbD]
  by_cases hlo : lo ≤ i
  · rw [Nat.add_sub_cancel' hlo]
    simp [hi, hlo, Bool.and_comm]
  · simp [hlo]

/-- The same for a flag. -/
theorem place_bit (v : Word) (i : Nat) : place (bit v i).toNat i = v &&& mask i 1 := by
  rw [← place_field]
  congr 1
  rw [bit, ← BitVec.testBit_toNat, Nat.toNat_testBit, field_toNat, Nat.pow_one]

/-! Masked-off bits. -/

theorem bit_and (v m : Word) (i : Nat) : bit (v &&& m) i = (bit v i && bit m i) := BitVec.getLsbD_and

theorem field_and (v m : Word) (lo width : Nat) :
    field (v &&& m) lo width = field v lo width &&& field m lo width := by
  apply BitVec.eq_of_getLsbD_eq
  intro i hi
  rw [BitVec.getLsbD_and, field_getLsbD, field_getLsbD, field_getLsbD, BitVec.getLsbD_and]
  simp [hi]

/-- A field inside a mask is read alike with the other bits cleared. -/
theorem field_and_of_allOnes {m : Word} {lo width : Nat} (h : field m lo width = BitVec.allOnes width)
    (v : Word) : field (v &&& m) lo width = field v lo width := by
  rw [field_and, h, BitVec.and_allOnes]

theorem bit_and_of_true {m : Word} {i : Nat} (h : bit m i = true) (v : Word) :
    bit (v &&& m) i = bit v i := by
  rw [bit_and, h, Bool.and_true]

/-- R97: bits 2..0 and 8 are not read. -/
theorem decConfig1Record_and (v : Word) : decConfig1Record (v &&& 0xFEF8) = decConfig1Record v := by
  have hbit {i : Nat} (h : bit 0xFEF8 i = true) : bit (v &&& 0xFEF8) i = bit v i := bit_and_of_true h v
  have hrate : field (v &&& 0xFEF8) 6 2 = field v 6 2 := field_and_of_allOnes (by decide) v
  unfold decConfig1Record
  rw [hrate, hbit (i := 3) rfl, hbit (i := 4) rfl, hbit (i := 5) rfl, hbit (i := 9) rfl, hbit (i := 10) rfl,
    hbit (i := 11) rfl, hbit (i := 12) rfl, hbit (i := 13) rfl, hbit (i := 14) rfl, hbit (i := 15) rfl]

/-- R101: bits 15..13 are not read. -/
theorem execDecBridge_and (v : Word) (s : State) : execDecBridge (v &&& 0x1FFF) s = execDecBridge v s := by
  have hbit {i : Nat} (h : bit 0x1FFF i = true) : bit (v &&& 0x1FFF) i = bit v i := bit_and_of_true h v
  have hfield {lo width : Nat} (h : field 0x1FFF lo width = BitVec.allOnes width) :
      field (v &&& 0x1FFF) lo width = field v lo width := field_and_of_allOnes h v
  unfold execDecBridge decBridgeRecord
  rw [hfield (lo := 0) (width := 4) (by decide), hfield (lo := 4) (width := 3) (by decide),
    hfield (lo := 7) (width := 1) (by decide), hfield (lo := 10) (width := 2) (by decide),
    hbit (i := 8) rfl, hbit (i := 9) rfl, hbit (i := 12) rfl]

/-! The encoders on well-formed records. -/

theorem exec_encCfg1_of_wellFormed {r : ZmdiConfig1Codes} (h : r.wellFormed = true) (s : State) :
    exec (.encCfg1 r) s = .next (s.respond ⟨none, some (.word (encConfig1Word r))⟩) := by
  have hrange : outOfRange (Config.reportedField (.encCfg1 r)) (config1Fields r) = none :=
    outOfRange_eq_none.mpr ((ZmdiConfig1Codes_wellFormed_iff r).mp h)
  simp only [exec, execEncCfg1, hrange, finish]

theorem exec_encBridge_of_wellFormed {r : BridgeConfigCodes} (h : r.wellFormed = true)
    (hmux : r.mux = .fullBridge ∨ r.mux = .halfBridge) (s : State) :
    exec (.encBridge r) s = .next (s.respond ⟨none, some (.word (encBridgeWord r))⟩) := by
  obtain ⟨hoffset, hcodes⟩ := (BridgeConfigCodes_wellFormed_iff r).mp h
  have hrange : outOfRange (Config.reportedField (.encBridge r)) (bridgeFields r) = none :=
    outOfRange_eq_none.mpr hcodes
  obtain hmux | hmux := hmux <;>
    simp only [exec, execEncBridge, if_neg (Nat.not_lt.mpr hoffset), hrange, hmux, finish]

theorem mux_valid_of_code {m : MuxMode} (h : m.code = 0b10 ∨ m.code = 0b11) :
    m = .fullBridge ∨ m = .halfBridge := by
  cases m with
  | fullBridge => exact .inl rfl
  | halfBridge => exact .inr rfl
  | invalid c =>
    have hc : c.toNat < 2 := c.isLt
    simp only [MuxMode.code] at h
    omega

theorem preampGain_code_lt (g : PreampGain) : g.code < 2 ^ 3 := by cases g <;> decide

/-- R96: bits 2..0 are 0b001 and bit 8 is 0. -/
theorem encConfig1Word_reserved {r : ZmdiConfig1Codes} (h : r.wellFormed = true) :
    encConfig1Word r &&& 0x0107 = 0x0001 := by
  have hcodes := (ZmdiConfig1Codes_wellFormed_iff r).mp h
  simp only [config1Fields, List.forall_mem_cons, List.not_mem_nil, false_imp_iff, implies_true, and_true]
    at hcodes
  obtain ⟨hclock, hcomm, hsleep, hrate, hcurve, htco, htcg, hbridge, hoffset, hgain, hlin⟩ := hcodes
  have hflag {n lo : Nat} (hn : n ≤ 1) (hm : mask lo 1 &&& 0x0107 = 0) : place n lo &&& 0x0107 = 0 :=
    place_and_eq_zero (width := 1) (Nat.lt_succ_of_le hn) hm
  have hrate' : place r.updateRate 6 &&& 0x0107 = 0 :=
    place_and_eq_zero (width := 2) (Nat.lt_succ_of_le hrate) (by decide)
  simp only [encConfig1Word, BitVec.and_or_distrib_right, hrate', hflag hclock (lo := 3) (by decide),
    hflag hcomm (lo := 4) (by decide), hflag hsleep (lo := 5) (by decide), hflag hcurve (lo := 9) (by decide),
    hflag htco (lo := 10) (by decide), hflag htcg (lo := 11) (by decide), hflag hbridge (lo := 12) (by decide),
    hflag hoffset (lo := 13) (by decide), hflag hgain (lo := 14) (by decide), hflag hlin (lo := 15) (by decide)]
  rfl

/-- R100: bits 15..13 are 0. -/
theorem encBridgeWord_reserved {r : BridgeConfigCodes} (h : r.wellFormed = true)
    (hmux : r.mux = .fullBridge ∨ r.mux = .halfBridge) : encBridgeWord r &&& 0xE000 = 0 := by
  obtain ⟨hoffset, hcodes⟩ := (BridgeConfigCodes_wellFormed_iff r).mp h
  simp only [bridgeFields, List.forall_mem_cons, List.not_mem_nil, false_imp_iff, implies_true, and_true]
    at hcodes
  obtain ⟨hpolarity, hlong, hsink, hnulling⟩ := hcodes
  have hflag {n lo : Nat} (hn : n ≤ 1) (hm : mask lo 1 &&& 0xE000 = 0) : place n lo &&& 0xE000 = 0 :=
    place_and_eq_zero (width := 1) (Nat.lt_succ_of_le hn) hm
  have hoffset' : place r.preampOffset 0 &&& 0xE000 = 0 :=
    place_and_eq_zero (width := 4) (Nat.lt_succ_of_le hoffset) (by decide)
  have hgain : place r.preampGain.code 4 &&& 0xE000 = 0 :=
    place_and_eq_zero (preampGain_code_lt _) (by decide)
  have hmux' : place r.mux.code 10 &&& 0xE000 = 0 := by obtain hmux | hmux := hmux <;> rw [hmux] <;> rfl
  simp only [encBridgeWord, BitVec.and_or_distrib_right, hoffset', hgain, hmux',
    hflag hpolarity (lo := 7) (by decide), hflag hlong (lo := 8) (by decide),
    hflag hsink (lo := 9) (by decide), hflag hnulling (lo := 12) (by decide)]
  rfl

/-- R100, R71: both valid mux codes have their upper bit, bit 11 of the word. -/
theorem encBridgeWord_bit11 {r : BridgeConfigCodes} (hmux : r.mux = .fullBridge ∨ r.mux = .halfBridge) :
    (encBridgeWord r).getLsbD 11 = true := by
  have hbit : (place r.mux.code 10).getLsbD 11 = true := by obtain hmux | hmux := hmux <;> rw [hmux] <;> rfl
  simp only [encBridgeWord, BitVec.getLsbD_or, hbit, Bool.or_true, Bool.true_or]

/-- Settles O21: what the encoders give outside the fields, and that the decoders mask it off. -/
theorem encodedReservedBitsAreFixed : Obligations.EncodedReservedBitsAreFixed := by
  unfold Obligations.EncodedReservedBitsAreFixed
  refine ⟨fun s r hwf => ?_, fun s r hwf hcode => ?_, fun s v u hvu => ?_, fun s v u hvu => ?_⟩
  · exact ⟨_, exec_encCfg1_of_wellFormed hwf s, encConfig1Word_reserved hwf⟩
  · have hmux := mux_valid_of_code hcode
    exact ⟨_, exec_encBridge_of_wellFormed hwf hmux s, encBridgeWord_reserved hwf hmux,
      encBridgeWord_bit11 hmux⟩
  · have hsame : decConfig1Record u = decConfig1Record v := by
      rw [← decConfig1Record_and u, ← hvu, decConfig1Record_and]
    exact ⟨decConfig1Record v, rfl, hsame ▸ rfl⟩
  · calc execDecBridge v s = execDecBridge (v &&& 0x1FFF) s := (execDecBridge_and v s).symm
      _ = execDecBridge (u &&& 0x1FFF) s := by rw [hvu]
      _ = execDecBridge u s := execDecBridge_and u s

end Sys2Proof.Machine
end

section
/-! Decoded gains as binary32 values (30_encoding.md R78, 42_factory_gain.md R107): a gain is a 15-bit number
times a power of 2, and a number of at most 24 bits times a power of 2 has a normal binary32 form (log 8). -/

namespace Sys2Proof.Machine

/-- The bits of the positive normal binary32 value with biased exponent `e` and fraction field `f`. -/
def normalBits (e f : Nat) : BitVec 32 := BitVec.ofNat 32 (e * 2 ^ 23 + f)

theorem binary32_normalBits {e f : Nat} (he : 0 < e) (he' : e < 255) (hf : f < 2 ^ 23) :
    binary32 (normalBits e f) = .finite ((((2 ^ 23 + f) * 2 ^ e : Nat) : ℚ) / ((2 ^ 150 : Nat) : ℚ)) := by
  have hbits : (normalBits e f).toNat = e * 2 ^ 23 + f := by
    rw [normalBits, BitVec.toNat_ofNat, Nat.mod_eq_of_lt (by omega)]
  have hsign : (normalBits e f).getLsbD 31 = false := by
    rw [← BitVec.testBit_toNat, hbits]
    exact Nat.testBit_lt_two_pow (by omega)
  have hexponent : ((normalBits e f).extractLsb' 23 8).toNat = e := by
    rw [BitVec.extractLsb'_toNat, hbits, Nat.shiftRight_eq_div_pow]
    omega
  have hfraction : ((normalBits e f).extractLsb' 0 23).toNat = f := by
    rw [BitVec.extractLsb'_toNat, hbits, Nat.shiftRight_eq_div_pow]
    omega
  simp only [binary32, hsign, hexponent, hfraction, binary32Magnitude, if_neg he'.ne, if_neg he.ne',
    Bool.false_eq_true, if_false]

/-- A positive number of at most 24 bits is shifted up to 24 bits, and the exponent down by as much. -/
theorem exists_normalBits {n x : Nat} (hn : 0 < n) (hn' : n < 2 ^ 24) (hx : 23 < x) (hx' : x < 255) :
    ∃ g : BitVec 32, binary32 g = .finite (((n * 2 ^ x : Nat) : ℚ) / ((2 ^ 150 : Nat) : ℚ)) := by
  have hlow : 2 ^ Nat.log 2 n ≤ n := Nat.pow_log_le_self 2 hn.ne'
  have hhigh : n < 2 ^ (Nat.log 2 n + 1) := Nat.lt_pow_succ_log_self (by decide) n
  have hlog : Nat.log 2 n ≤ 23 := Nat.le_of_lt_succ (Nat.log_lt_of_lt_pow hn.ne' hn')
  generalize Nat.log 2 n = k at hlow hhigh hlog
  have hshift : 2 ^ k * 2 ^ (23 - k) = 2 ^ 23 := by rw [← Nat.pow_add, Nat.add_sub_cancel' hlog]
  have hmin : 2 ^ 23 ≤ n * 2 ^ (23 - k) := hshift ▸ Nat.mul_le_mul_right _ hlow
  have hmax : n * 2 ^ (23 - k) < 2 ^ 24 := by
    calc n * 2 ^ (23 - k) < 2 ^ (k + 1) * 2 ^ (23 - k) := Nat.mul_lt_mul_of_pos_right hhigh (by positivity)
      _ = 2 ^ 24 := by rw [Nat.pow_succ, Nat.mul_right_comm, hshift, ← Nat.pow_succ]
  have hvalue : (2 ^ 23 + (n * 2 ^ (23 - k) - 2 ^ 23)) * 2 ^ (x - (23 - k)) = n * 2 ^ x := by
    rw [Nat.add_sub_cancel' hmin, Nat.mul_assoc, ← Nat.pow_add, Nat.add_sub_cancel' (by omega)]
  refine ⟨normalBits (x - (23 - k)) (n * 2 ^ (23 - k) - 2 ^ 23), ?_⟩
  rw [binary32_normalBits (by omega) (by omega) (by omega), hvalue]

/-- R107: a decoded gain is a 15-bit number times 2^-13, or times 2^-10 with the range flag. -/
theorem gainValue_eq (v : Word) : ∃ n < 2 ^ 15, ∃ x, (x = 137 ∨ x = 140) ∧
    gainValue v = ((n * 2 ^ x : Nat) : ℚ) / ((2 ^ 150 : Nat) : ℚ) := by
  have hn : (v &&& 0x7FFF).toNat < 2 ^ 15 := Nat.and_lt_two_pow _ (by decide)
  refine ⟨(v &&& 0x7FFF).toNat, hn, ?_⟩
  unfold gainValue
  split
  · refine ⟨140, .inr rfl, ?_⟩
    push_cast
    ring
  · refine ⟨137, .inl rfl, ?_⟩
    push_cast
    ring

theorem binary32_zero : binary32 0#32 = .finite 0 := by simp [binary32, binary32Magnitude]

/-- Settles O24: a gain of 0 is the zero, and every other one is normal. -/
theorem decodedGainsAreBinary32Values : Obligations.DecodedGainsAreBinary32Values := by
  unfold Obligations.DecodedGainsAreBinary32Values
  intro s v
  obtain ⟨n, hn, x, hx, hgain⟩ := gainValue_eq v
  have hg : ∃ g : BitVec 32, binary32 g = .finite (gainValue v) := by
    rw [hgain]
    obtain rfl | hpos := Nat.eq_zero_or_pos n
    · exact ⟨0, by simp [binary32_zero]⟩
    · exact exists_normalBits hpos (by omega) (by omega) (by omega)
  obtain ⟨g, hg⟩ := hg
  exact ⟨g, gainValue v, rfl, hg⟩

end Sys2Proof.Machine
end

section
/-! Operations that succeed (40_protocol.md R86 to R90): the whole state each leaves, with its response on top. -/

namespace Sys2Proof.Machine

@[simp] theorem replyAt_respond (s : State) (r : Response) (k : Nat) :
    (s.respond r).replyAt k = s.replyAt k := rfl

theorem guard_of_ps {p : ProtoState} {s : State} (h : s.ps = p) : guard p s = none :=
  guard_eq_none.mpr (.inr h)

/-- The data bytes of a value, as numbers (R43). -/
theorem hiByte_eq_ofNat (v : Word) : hiByte v = BitVec.ofNat 8 (v.toNat / 256) := by
  have h := hiByte_ofNat (Nat.le_of_lt_succ v.isLt)
  rwa [BitVec.ofNat_toNat, BitVec.setWidth_eq] at h

theorem loByte_eq_ofNat (v : Word) : loByte v = BitVec.ofNat 8 v.toNat := by
  have h := loByte_ofNat v.toNat
  rwa [BitVec.ofNat_toNat, BitVec.setWidth_eq] at h

section
variable (s : State)

/-- R86. PWRCYC succeeds in every state: of the cases of `Completion` it has only its own. -/
theorem exec_pwrcyc : exec .pwrcyc s = .next (((s.afterTraffic
    [.power .low, .wait s.cfg.tPwrLow, .power .high, .wait s.cfg.tPwrHigh] .poweredIdle 0).setPwr
      .high).respond ⟨none, none⟩) := by
  obtain ⟨new, r, u, hexec, hu⟩ := exec_completes s .pwrcyc
  cases hu with
  | pwrcyc => exact hexec
  | codec hi => cases hi
  | refused hi => simp [bytesWritten, bytesRead] at hi
  | traffic hi => cases hi

/-- R87 -/
theorem exec_startcm_done (hps : s.ps = .poweredIdle) {bytes : List Byte} (h0 : s.replyAt 0 = .done bytes) :
    exec .startcm s = .next ((s.afterTraffic
      [.write s.busAddr [s.cfg.cmdStartCm] .ok, .wait s.cfg.tCmSettle] .commandMode
        s.settleRemaining).respond ⟨none, none⟩) := by
  simp only [exec, execStartcm, guard_of_ps hps, hazardCheck_eq_afterTraffic, busWrite_afterTraffic,
    busTransactions_nil, h0, writeResult_done, wait_afterTraffic, State.afterTraffic_setPs,
    State.afterTraffic_ps, hps, if_true, finish]
  rfl

/-- The reply to a register read that carries `v` (R61). -/
def State.valueReply (v : Word) : List Byte :=
  [s.cfg.statusOk, BitVec.ofNat 8 (v.toNat / 256), BitVec.ofNat 8 v.toNat]

/-- The events of a RDREG that succeeds (R89). -/
def State.rdregEvents (r : Nat) (v : Word) : List Event :=
  [.write s.busAddr [BitVec.ofNat 8 r] .ok, .wait s.cfg.tRdDelay, .read s.busAddr 3 (.ok (s.valueReply v))]

/-- The state a RDREG of the value `v` leaves (R89). -/
def State.afterRdreg (r : Nat) (v : Word) : State :=
  (s.afterTraffic (s.rdregEvents r v) s.ps s.settleRemaining).respond ⟨none, some (.word v)⟩

section
variable (r : Nat) (v : Word)

@[simp] theorem State.afterRdreg_ps : (s.afterRdreg r v).ps = s.ps := rfl
@[simp] theorem State.afterRdreg_busAddr : (s.afterRdreg r v).busAddr = s.busAddr := rfl
@[simp] theorem State.afterRdreg_settleRemaining :
    (s.afterRdreg r v).settleRemaining = s.settleRemaining := rfl
@[simp] theorem State.afterRdreg_hazardFault : (s.afterRdreg r v).hazardFault =
    (s.hazardFault || decide (0 < s.settleRemaining)) := rfl
@[simp] theorem State.afterRdreg_cfg : (s.afterRdreg r v).cfg = s.cfg := rfl
@[simp] theorem State.afterRdreg_history :
    (s.afterRdreg r v).history = s.history ++ s.rdregEvents r v := rfl
@[simp] theorem State.afterRdreg_responses :
    (s.afterRdreg r v).responses = s.responses ++ [⟨none, some (.word v)⟩] := rfl

/-- A read uses two replies. -/
@[simp] theorem replyAt_afterRdreg (k : Nat) : (s.afterRdreg r v).replyAt k = s.replyAt (2 + k) :=
  replyAt_afterTraffic s (s.rdregEvents r v) s.ps s.settleRemaining k

end

/-- The transport takes the command of a RDREG and delivers `v`, from the k-th transaction on. -/
def State.AnswersRead (k : Nat) (v : Word) : Prop :=
  (∃ bytes : List Byte, s.replyAt k = .done bytes) ∧ s.replyAt (k + 1) = .done (s.valueReply v)

theorem State.answersRead_afterRdreg {r k : Nat} {v w : Word} (h : s.AnswersRead (2 + k) w) :
    (s.afterRdreg r v).AnswersRead k w := by
  simpa [State.AnswersRead, State.valueReply, Nat.add_assoc] using h

/-- R89 -/
theorem exec_rdreg_answered {r : Nat} {v : Word} (hr : r < s.cfg.nreg) (hps : s.ps = .commandMode)
    (h : s.AnswersRead 0 v) : exec (.rdreg r) s = .next (s.afterRdreg r v) := by
  obtain ⟨⟨bytes, h0⟩, h1⟩ := h
  have hread : readResult 3 (s.replyAt (0 + 1)) = .ok (s.valueReply v) := readResult_eq_ok.mpr ⟨h1, rfl⟩
  have hvalue : bigEndian (BitVec.ofNat 8 (v.toNat / 256)) (BitVec.ofNat 8 v.toNat) = v := by
    rw [← hiByte_eq_ofNat, ← loByte_eq_ofNat, bigEndian_hiByte_loByte]
  simp only [exec, execRdreg, if_neg (Nat.not_le.mpr hr), guard_of_ps hps, hazardCheck_eq_afterTraffic,
    busWrite_afterTraffic, wait_afterTraffic, busRead_afterTraffic, busTransactions_snoc_wait,
    busTransactions_snoc_write, busTransactions_nil, h0, writeResult_done, hread, State.valueReply,
    State.afterTraffic_cfg, if_true, hvalue, finish]
  rfl

/-- R90 -/
theorem exec_wrreg_done {r : Nat} (v : Word) (hr : r < s.cfg.nreg) (hps : s.ps = .commandMode)
    {bytes : List Byte} (h0 : s.replyAt 0 = .done bytes) :
    exec (.wrreg r v.toNat) s = .next ((s.afterTraffic
      [.write s.busAddr [BitVec.ofNat 8 (s.cfg.wrOffset + r), BitVec.ofNat 8 (v.toNat / 256),
        BitVec.ofNat 8 v.toNat] .ok] s.ps s.cfg.tWrSettle).respond ⟨none, none⟩) := by
  have hv : ¬ 0xFFFF < v.toNat := Nat.not_lt.mpr (Nat.le_of_lt_succ v.isLt)
  simp only [exec, execWrreg, if_neg (Nat.not_le.mpr hr), if_neg hv, guard_of_ps hps,
    hazardCheck_eq_afterTraffic, busWrite_afterTraffic, busTransactions_nil, h0, writeResult_done,
    State.afterTraffic_setSettle, finish, frameCmd3, BitVec.ofNat_toNat, BitVec.setWidth_eq,
    hiByte_eq_ofNat, loByte_eq_ofNat]
  rfl

end

end Sys2Proof.Machine
end

section
/-! The pseudo-operations (30_encoding.md R80): each is run operation by operation with `thenDo_of_exec`, and ends
in the state its operations leave one after another. -/

namespace Sys2Proof.Machine

/-! One operation of a sequence. -/

section
variable {s u : State} {i : Instr} {r : Response}

/-- At status `OK`, or for a caller that goes on, the sequence goes on with the result. -/
theorem thenDo_of_exec {p : OnError} (h : exec i s = .next (u.respond r)) (hp : r.error = none ∨ p = .goOn)
    (k : Option Value → State → Result) : thenDo p i s k = k r.result (u.respond r) := by
  simp [thenDo, h, hp]

/-- A caller that stops does so at the first other status. -/
theorem thenDo_stop (h : exec i s = .next (u.respond r)) (he : r.error ≠ none)
    (k : Option Value → State → Result) : thenDo .stop i s k = .next (u.respond r) := by
  simp [thenDo, h, he]

theorem thenDo_rdreg (p : OnError) {n : Nat} {v : Word} (hn : n < s.cfg.nreg) (hps : s.ps = .commandMode)
    (h : s.AnswersRead 0 v) (k : Option Value → State → Result) :
    thenDo p (.rdreg n) s k = k (some (.word v)) (s.afterRdreg n v) :=
  thenDo_of_exec (exec_rdreg_answered s hn hps h) (.inl rfl) k

end

/-- Settles O54: PWRCYC leaves the state in which STARTCM enters command mode, with no settle owed. -/
theorem entercmReachesCommandMode : Obligations.EntercmReachesCommandMode := by
  unfold Obligations.EntercmReachesCommandMode
  intro p s bytes h0
  rw [enterCm, thenDo_of_exec (exec_pwrcyc s) (.inl rfl), exec_startcm_done (bytes := bytes)]
  · have hpower : busTransactions
        [.power .low, .wait s.cfg.tPwrLow, .power .high, .wait s.cfg.tPwrHigh] = 0 := rfl
    have hstart : busTransactions
        [.write s.busAddr [s.cfg.cmdStartCm] .ok, .wait s.cfg.tCmSettle] = 1 := rfl
    simp [State.respond, State.afterTraffic, State.setPwr, hpower, hstart]
  · rfl
  · exact h0

/-! RMW_CFG1. -/

theorem config1_codes_wellFormed (x : ZmdiConfig1) : x.codes.wellFormed = true := by
  have hp (p : Polarity) : p.code ≤ 1 := by cases p <;> decide
  have hclock : x.clockSpeed.code ≤ 1 := by cases x.clockSpeed <;> decide
  have hcomm : x.commType.code ≤ 1 := by cases x.commType <;> decide
  have hsleep : x.sleepMode.code ≤ 1 := by cases x.sleepMode <;> decide
  have hrate : x.updateRate.code ≤ 3 := by cases x.updateRate <;> decide
  have hcurve : x.curveShape.code ≤ 1 := by cases x.curveShape <;> decide
  simp [ZmdiConfig1Codes.wellFormed, ZmdiConfig1.codes, hp, hclock, hcomm, hsleep, hrate, hcurve]

theorem polarityOf_code (b : Bool) : (polarityOf b).code = b.toNat := by cases b <;> rfl

/-- R102: encoding a decoded value gives it back but for the reserved bits. -/
theorem encConfig1Word_decConfig1Record (v : Word) :
    encConfig1Word (decConfig1Record v).codes = (v &&& 0xFEF8) ||| 0x0001 := by
  have hclock (b : Bool) : (if b then ClockSpeed.mhz1 else .mhz4).code = b.toNat := by cases b <;> rfl
  have hcomm (b : Bool) : (if b then CommType.altBus else .nativeBus).code = b.toNat := by cases b <;> rfl
  have hsleep (b : Bool) : (if b then SleepMode.onDemand else .continuous).code = b.toNat := by
    cases b <;> rfl
  have hcurve (b : Bool) : (if b then CurveShape.sShaped else .parabolic).code = b.toNat := by
    cases b <;> rfl
  have hrate : place (updateRateOf (field v 6 2)).code 6 = v &&& mask 6 2 := by
    rw [updateRateOf_spec, place_field]
  have hreserved : place 0 8 = 0#16 := rfl
  have hmask : (0xFEF8 : Word) = mask 3 1 ||| mask 4 1 ||| mask 5 1 ||| mask 6 2 ||| mask 9 1 ||| mask 10 1 |||
      mask 11 1 ||| mask 12 1 ||| mask 13 1 ||| mask 14 1 ||| mask 15 1 := by decide
  rw [hmask, BitVec.or_comm _ 0x0001]
  simp only [encConfig1Word, ZmdiConfig1.codes, decConfig1Record, hclock, hcomm, hsleep, hrate, hcurve,
    polarityOf_code, place_bit, hreserved, BitVec.or_zero, BitVec.and_or_distrib_left, BitVec.or_assoc]

/-- R80: RMW_CFG1 after a read that succeeds writes the encoded record to the same register. -/
theorem rmwConfig1_of_read (p : OnError) (f : ZmdiConfig1 → ZmdiConfig1) {s : State} {v : Word}
    (hr : s.cfg.regConfig1 < s.cfg.nreg) (hps : s.ps = .commandMode) (h : s.AnswersRead 0 v) :
    rmwConfig1 p f s =
      exec (.wrreg s.cfg.regConfig1 (encConfig1Word (f (decConfig1Record v)).codes).toNat)
        (((s.afterRdreg s.cfg.regConfig1 v).respond ⟨none, some (.config1 (decConfig1Record v))⟩).respond
          ⟨none, some (.word (encConfig1Word (f (decConfig1Record v)).codes))⟩) := by
  rw [rmwConfig1, thenDo_rdreg p hr hps h]
  refine (thenDo_of_exec (i := .decCfg1 v) rfl (.inl rfl) _).trans ?_
  exact thenDo_of_exec (exec_encCfg1_of_wellFormed (config1_codes_wellFormed _) _) (.inl rfl) _

/-- Settles O55: WRREG follows the read with no settle owed, and the value is the one R102 gives. -/
theorem rmwCfg1WithoutChangeWritesTheValueBack : Obligations.RmwCfg1WithoutChangeWritesTheValueBack := by
  unfold Obligations.RmwCfg1WithoutChangeWritesTheValueBack
  intro p s b0 b2 v hps hr hsettle h0 h1 h2
  refine ⟨_, (rmwConfig1_of_read p id hr hps ⟨⟨b0, h0⟩, h1⟩).trans
    (exec_wrreg_done _ _ hr hps (bytes := b2) (by simpa using h2)), rfl, ?_, ?_⟩
  · simp [hsettle]
  · simp [State.rdregEvents, State.valueReply, encConfig1Word_decConfig1Record]

/-! RMW_BRIDGE. -/

theorem bridge_codes_wellFormed (x : BridgeConfig) : x.codes.wellFormed = true := by
  have hflag (b : Bool) : flagCode b ≤ 1 := by cases b <;> decide
  have hoffset : x.preampOffset.toNat ≤ 15 := Nat.le_of_lt_succ x.preampOffset.isLt
  have hpolarity : x.polarity.toNat ≤ 1 := Nat.le_of_lt_succ x.polarity.isLt
  simp [BridgeConfigCodes.wellFormed, BridgeConfig.codes, hflag, hoffset, hpolarity]

/-- R101: without bit 11 the mux code is 0b00 or 0b01. -/
theorem exec_decBridge_flagged {v : Word} (h : v.getLsbD 11 = false) (s : State) : exec (.decBridge v) s =
    .next (s.respond ⟨some (.invalidMux (field v 10 2)), some (.bridge (decBridgeRecord v))⟩) := by
  have hmux : field v 10 2 = 0b00 ∨ field v 10 2 = 0b01 := by
    have hhigh : (field v 10 2).getLsbD 1 = false := by
      rw [field_getLsbD, h, Bool.and_false]
    generalize field v 10 2 = m at hhigh
    revert m
    decide
  simp only [exec, execDecBridge, if_pos hmux, raiseWith]

/-- R101: a caller that stops does so at the flagged decode. -/
theorem rmwBridge_stop_of_flagged (f : BridgeConfig → BridgeConfig) {s : State} {v : Word}
    (hr : s.cfg.regBridge < s.cfg.nreg) (hps : s.ps = .commandMode) (h : s.AnswersRead 0 v)
    (hflag : v.getLsbD 11 = false) : rmwBridge .stop f s = .next ((s.afterRdreg s.cfg.regBridge v).respond
      ⟨some (.invalidMux (field v 10 2)), some (.bridge (decBridgeRecord v))⟩) := by
  rw [rmwBridge, thenDo_rdreg .stop hr hps h]
  exact thenDo_stop (exec_decBridge_flagged hflag _) (Option.some_ne_none _) _

/-- R101: a caller that goes on writes the record made of the flagged one, where that has a valid mux. -/
theorem rmwBridge_goOn_of_flagged (f : BridgeConfig → BridgeConfig) {s : State} {v : Word}
    (hr : s.cfg.regBridge < s.cfg.nreg) (hps : s.ps = .commandMode) (h : s.AnswersRead 0 v)
    (hflag : v.getLsbD 11 = false)
    (hmux : (f (decBridgeRecord v)).mux = .fullBridge ∨ (f (decBridgeRecord v)).mux = .halfBridge) :
    rmwBridge .goOn f s =
      exec (.wrreg s.cfg.regBridge (encBridgeWord (f (decBridgeRecord v)).codes).toNat)
        (((s.afterRdreg s.cfg.regBridge v).respond
          ⟨some (.invalidMux (field v 10 2)), some (.bridge (decBridgeRecord v))⟩).respond
            ⟨none, some (.word (encBridgeWord (f (decBridgeRecord v)).codes))⟩) := by
  rw [rmwBridge, thenDo_rdreg .goOn hr hps h]
  refine (thenDo_of_exec (exec_decBridge_flagged hflag _) (.inr rfl) _).trans ?_
  exact thenDo_of_exec (exec_encBridge_of_wellFormed (bridge_codes_wellFormed _) hmux _) (.inl rfl) _

/-- Settles O56: after a stop the state is that of the RDREG, with the flag answered; a caller that goes on
ends with a WRREG of the repaired record. -/
theorem rmwBridgeRepairsAnInvalidMuxOnlyOnRequest :
    Obligations.RmwBridgeRepairsAnInvalidMuxOnlyOnRequest := by
  unfold Obligations.RmwBridgeRepairsAnInvalidMuxOnlyOnRequest
  intro s f b0 b2 v w hps hr h0 h1 h2 hflag hmux hw
  have hread : s.AnswersRead 0 v := ⟨⟨b0, h0⟩, h1⟩
  constructor
  · refine ⟨_, rmwBridge_stop_of_flagged f hr hps hread hflag, rfl, rfl, ?_⟩
    simp
  · refine ⟨_, (rmwBridge_goOn_of_flagged f hr hps hread hflag hmux).trans
      (exec_wrreg_done _ _ hr hps (bytes := b2) (by simpa using h2)), rfl, ?_, ?_⟩
    · simp [State.rdregEvents, State.valueReply, hw]
    · simp [hw]

/-! RDFACTID. -/

theorem decFactoryId_lotNumber (c0 c1 c2 : Word) :
    (decFactoryId c0 c1 c2).lotNumber.toNat = c2.toNat * 2 ^ 3 + c0.toNat / 2 ^ 13 := by
  have h2 := c2.isLt
  have hlow : c0.toNat / 2 ^ 13 < 2 ^ 3 := by have := c0.isLt; omega
  simp only [decFactoryId, BitVec.toNat_or, BitVec.toNat_shiftLeft, BitVec.toNat_setWidth,
    BitVec.toNat_ushiftRight, Nat.shiftRight_eq_div_pow, Nat.shiftLeft_eq]
  rw [Nat.mod_eq_of_lt (show c2.toNat < 2 ^ 19 by omega),
    Nat.mod_eq_of_lt (show c2.toNat * 2 ^ 3 < 2 ^ 19 by omega),
    Nat.mod_eq_of_lt (show c0.toNat / 2 ^ 13 < 2 ^ 19 by omega), Nat.mul_comm,
    ← Nat.two_pow_add_eq_or_of_lt hlow]

theorem decFactoryId_waferNumber (c0 c1 c2 : Word) :
    (decFactoryId c0 c1 c2).waferNumber.toNat = c0.toNat / 2 ^ 8 % 32 := by
  simp only [decFactoryId, BitVec.toNat_setWidth, BitVec.toNat_and, BitVec.toNat_ushiftRight,
    Nat.shiftRight_eq_div_pow]
  rw [show (0x1F : Word).toNat = 2 ^ 5 - 1 from rfl, Nat.and_two_pow_sub_one_eq_mod, Nat.mod_mod]

theorem decFactoryId_waferXCoordinate (c0 c1 c2 : Word) :
    (decFactoryId c0 c1 c2).waferXCoordinate.toNat = c0.toNat % 128 := by
  simp only [decFactoryId, BitVec.toNat_setWidth, BitVec.toNat_and]
  rw [show (0x7F : Word).toNat = 2 ^ 7 - 1 from rfl, Nat.and_two_pow_sub_one_eq_mod, Nat.mod_mod]

/-- R104: RDFACTID after three reads that succeed decodes their values. -/
theorem rdFactId_of_reads (p : OnError) {s : State} {c0 c1 c2 : Word}
    (hr : s.cfg.regCustId0 + 2 < s.cfg.nreg) (hps : s.ps = .commandMode) (h0 : s.AnswersRead 0 c0)
    (h1 : s.AnswersRead 2 c1) (h2 : s.AnswersRead 4 c2) :
    rdFactId p s = .next ((((s.afterRdreg s.cfg.regCustId0 c0).afterRdreg (s.cfg.regCustId0 + 1)
      c1).afterRdreg (s.cfg.regCustId0 + 2) c2).respond ⟨none, some (.factory (decFactoryId c0 c1 c2))⟩) := by
  rw [rdFactId, thenDo_rdreg p (by omega) hps h0]
  refine (thenDo_rdreg (s := s.afterRdreg s.cfg.regCustId0 c0) p (Nat.lt_of_succ_lt hr) hps
    (s.answersRead_afterRdreg h1) _).trans ?_
  exact thenDo_rdreg (s := (s.afterRdreg s.cfg.regCustId0 c0).afterRdreg (s.cfg.regCustId0 + 1) c1) p hr hps
    (State.answersRead_afterRdreg _ (s.answersRead_afterRdreg h2)) _

/-- Settles O57: each read leaves the later replies for the next. -/
theorem rdfactidReadsThreeRegistersAndDecodesThem :
    Obligations.RdfactidReadsThreeRegistersAndDecodesThem := by
  unfold Obligations.RdfactidReadsThreeRegistersAndDecodesThem
  intro p s b0 b2 b4 c0 c1 c2 hps hr h0 h2 h4 h1 h3 h5
  refine ⟨_, s.rdregEvents s.cfg.regCustId0 c0 ++ s.rdregEvents (s.cfg.regCustId0 + 1) c1 ++
    s.rdregEvents (s.cfg.regCustId0 + 2) c2, decFactoryId c0 c1 c2,
    rdFactId_of_reads p hr hps ⟨⟨b0, h0⟩, h1⟩ ⟨⟨b2, h2⟩, h3⟩ ⟨⟨b4, h4⟩, h5⟩, ?_, ?_, rfl,
    decFactoryId_lotNumber c0 c1 c2, decFactoryId_waferNumber c0 c1 c2,
    decFactoryId_waferXCoordinate c0 c1 c2, rfl⟩
  · simp
  · simp [State.rdregEvents, State.valueReply]

end Sys2Proof.Machine
end

section
/-! One operation at a time (40_protocol.md R86 to R93): the whole next state in each clause of its rule. The
guard and the first transaction are said once, for every gated operation. -/

namespace Sys2Proof.Machine

/-! The guard and the first transaction. -/

section
variable {s : State}

/-- R85: under `enforce` the guard refuses every state but its own. -/
theorem guard_of_enforce {p : ProtoState} (hguard : s.cfg.modeGuard = .enforce) (hps : s.ps ≠ p) :
    guard p s = some (.wrongState s.ps) := guard_eq_some.mpr ⟨hguard, hps, rfl⟩

@[simp] theorem hazardCheck_ps : (hazardCheck s).ps = s.ps := by rw [hazardCheck_eq]

@[simp] theorem hazardCheck_cfg : (hazardCheck s).cfg = s.cfg := by rw [hazardCheck_eq]

/-- R129, R31: the hazard check and then the write, which is the first transaction of its operation. -/
theorem busWrite_hazardCheck (bytes : List Byte) : busWrite bytes (hazardCheck s) =
    (writeResult (s.replyAt 0), s.afterTraffic [.write s.busAddr bytes (writeResult (s.replyAt 0))] s.ps
      s.settleRemaining) := by
  rw [hazardCheck_eq_afterTraffic, busWrite_afterTraffic]
  rfl

theorem busWrite_hazardCheck_failed (h0 : s.replyAt 0 = .failed) (bytes : List Byte) :
    busWrite bytes (hazardCheck s) =
      (.fail, s.afterTraffic [.write s.busAddr bytes .fail] s.ps s.settleRemaining) := by
  rw [busWrite_hazardCheck, h0, writeResult_failed]

theorem busWrite_hazardCheck_done {reply : List Byte} (h0 : s.replyAt 0 = .done reply) (bytes : List Byte) :
    busWrite bytes (hazardCheck s) =
      (.ok, s.afterTraffic [.write s.busAddr bytes .ok] s.ps s.settleRemaining) := by
  rw [busWrite_hazardCheck, h0, writeResult_done]

end

/-! PWRCYC and SLEEP have one clause, in every state. -/

/-- Settles O1: `exec_pwrcyc` with the fields written out; the events of PWRCYC hold no transaction. -/
theorem pwrcycHoldsLowThenHighAndClearsSettle : Obligations.PwrcycHoldsLowThenHighAndClearsSettle := by
  unfold Obligations.PwrcycHoldsLowThenHighAndClearsSettle
  intro s
  rw [exec_pwrcyc]
  rfl

/-- R92 -/
theorem exec_sleep (s : State) (t : Nat) : exec (.sleep t) s = .next (State.respond { s with
    ps := if s.ps = .poweredIdle ∧ 0 < t then .unknown else s.ps
    settleRemaining := s.settleRemaining - t
    history := s.history ++ [.wait t] } ⟨none, none⟩) := by
  obtain ⟨new, r, u, hexec, hu⟩ := exec_completes s (.sleep t)
  cases hu with
  | sleep => exact hexec
  | codec hi => cases hi
  | refused hi => simp [bytesWritten, bytesRead] at hi
  | traffic hi => cases hi

/-- Settles O7: `exec_sleep` with the response in its field. -/
theorem sleepPaysTheSettleAndClosesTheCommandWindow :
    Obligations.SleepPaysTheSettleAndClosesTheCommandWindow := by
  unfold Obligations.SleepPaysTheSettleAndClosesTheCommandWindow
  exact exec_sleep

/-- Settles O42: the settle by truncated subtraction; the command window is closed by the sum exactly if one of
the two sleeps is positive, and from then on it is no longer open. -/
theorem sleepsAddUpAgainstTheSettle : Obligations.SleepsAddUpAgainstTheSettle := by
  unfold Obligations.SleepsAddUpAgainstTheSettle
  intro s a b
  refine ⟨_, _, _, exec_sleep s a, exec_sleep _ b, exec_sleep s (a + b), Nat.sub_sub _ _ _, ?_, fun h => ?_⟩
  · by_cases hps : s.ps = .poweredIdle
    · by_cases ha : 0 < a
      · simp [hps, ha]
      · simp [hps, Nat.eq_zero_of_not_pos ha]
    · simp [hps]
  · exact (Nat.sub_sub _ _ _).trans (Nat.sub_eq_zero_of_le h)

/-! STARTCM and STARTNOM. -/

/-- Settles O2: the guard decides the first clause, and the reply to the one write the other two. -/
theorem startcmSendsTheByteAndEntersCommandMode : Obligations.StartcmSendsTheByteAndEntersCommandMode := by
  unfold Obligations.StartcmSendsTheByteAndEntersCommandMode
  refine ⟨fun s hguard hps => ?refused, fun s hpass h0 => ?failed, fun s reply hpass h0 => ?sent⟩
  case refused =>
    simp only [exec, execStartcm, guard_of_enforce hguard hps]
    rfl
  case failed =>
    simp only [exec, execStartcm, guard_eq_none.mpr hpass, hazardCheck_cfg, busWrite_hazardCheck_failed h0]
    rfl
  case sent =>
    simp only [exec, execStartcm, guard_eq_none.mpr hpass, hazardCheck_cfg, hazardCheck_ps,
      busWrite_hazardCheck_done h0, wait_afterTraffic]
    rfl

/-- Settles O3, as O2; nothing is waited for after the write. -/
theorem startnomSendsTheByteAndEntersNormalOperation :
    Obligations.StartnomSendsTheByteAndEntersNormalOperation := by
  unfold Obligations.StartnomSendsTheByteAndEntersNormalOperation
  refine ⟨fun s hguard hps => ?refused, fun s hpass h0 => ?failed, fun s reply hpass h0 => ?sent⟩
  case refused =>
    simp only [exec, execStartnom, guard_of_enforce hguard hps]
    rfl
  case failed =>
    simp only [exec, execStartnom, guard_eq_none.mpr hpass, hazardCheck_cfg, busWrite_hazardCheck_failed h0]
    rfl
  case sent =>
    simp only [exec, execStartnom, guard_eq_none.mpr hpass, hazardCheck_cfg, hazardCheck_ps,
      busWrite_hazardCheck_done h0]
    rfl

/-! RDREG. -/

/-- What RDREG answers to the result of its read: byte 0 is validated, the others are the payload (R61, R89). -/
def rdregAnswer (c : Config) : ReadResult → Response
  | .ok [st, d1, d0] =>
    if st = c.statusOk then ⟨none, some (.word (bigEndian d1 d0))⟩ else ⟨some (.badStatus st), none⟩
  | _ => ⟨some .readFailed, none⟩

/-- R89: once its command byte is taken, RDREG waits, reads, and answers what the read gives. -/
theorem exec_rdreg_sent {s : State} {r : Nat} (hr : r < s.cfg.nreg)
    (hpass : s.cfg.modeGuard = .passthrough ∨ s.ps = .commandMode) {reply : List Byte}
    (h0 : s.replyAt 0 = .done reply) : exec (.rdreg r) s = .next ((s.afterTraffic
      [.write s.busAddr [BitVec.ofNat 8 r] .ok, .wait s.cfg.tRdDelay,
        .read s.busAddr 3 (readResult 3 (s.replyAt 1))] s.ps s.settleRemaining).respond
      (rdregAnswer s.cfg (readResult 3 (s.replyAt 1)))) := by
  have hsent : busTransactions [.write s.busAddr (frameCmd1 s.cfg (.read r)) .ok, .wait s.cfg.tRdDelay] = 1 :=
    rfl
  simp only [exec, execRdreg, if_neg (Nat.not_le.mpr hr), guard_eq_none.mpr hpass, hazardCheck_cfg,
    busWrite_hazardCheck_done h0, wait_afterTraffic, busRead_afterTraffic, List.singleton_append,
    State.afterTraffic_cfg, hsent]
  generalize readResult 3 (s.replyAt 1) = res
  match res with
  | .ok [st, d1, d0] =>
    by_cases hst : st = s.cfg.statusOk
    · rw [rdregAnswer, if_pos hst]
      exact if_pos hst
    · rw [rdregAnswer, if_neg hst]
      exact if_neg hst
  | .fail | .ok [] | .ok [_] | .ok [_, _] | .ok (_ :: _ :: _ :: _ :: _) => rfl

/-- Settles O4: the last three clauses are the three answers of `rdregAnswer`. -/
theorem rdregReadsAndValidatesTheReply : Obligations.RdregReadsAndValidatesTheReply := by
  unfold Obligations.RdregReadsAndValidatesTheReply
  refine ⟨fun s r hr => ?outOfRange, fun s r hr hguard hps => ?refused, fun s r hr hpass h0 => ?notSent,
    fun s r reply hr hpass h0 h1 => ?notRead, fun s r reply st d1 d0 hr hpass h0 h1 hst => ?badStatus,
    fun s r reply d1 d0 hr hpass h0 h1 => ?read⟩
  case outOfRange => exact if_pos hr
  case refused =>
    simp only [exec, execRdreg, if_neg (Nat.not_le.mpr hr), guard_of_enforce hguard hps]
    rfl
  case notSent =>
    simp only [exec, execRdreg, if_neg (Nat.not_le.mpr hr), guard_eq_none.mpr hpass, hazardCheck_cfg,
      busWrite_hazardCheck_failed h0]
    rfl
  case notRead =>
    rw [exec_rdreg_sent hr hpass h0, readResult_eq_fail.mpr h1]
    rfl
  case badStatus =>
    rw [exec_rdreg_sent hr hpass h0, (readResult_eq_ok (n := 3)).mpr ⟨h1, rfl⟩, rdregAnswer, if_neg hst]
    rfl
  case read =>
    rw [exec_rdreg_sent hr hpass h0, (readResult_eq_ok (n := 3)).mpr ⟨h1, rfl⟩, rdregAnswer, if_pos rfl,
      bigEndian_eq_ofNat]
    rfl

/-! WRREG. -/

/-- Settles O5: the frame is the write code with the two bytes of the value; the settle is set on both ways
past the guard. -/
theorem wrregSendsTheFrameAndOwesTheSettle : Obligations.WrregSendsTheFrameAndOwesTheSettle := by
  unfold Obligations.WrregSendsTheFrameAndOwesTheSettle
  refine ⟨fun s r v hr => ?index, fun s r v hr hv => ?value, fun s r v hr hv hguard hps => ?refused,
    fun s r v hr hv hpass h0 => ?failed, fun s r v reply hr hv hpass h0 => ?sent⟩
  case index => exact if_pos hr
  case value => exact (if_neg (Nat.not_le.mpr hr)).trans (if_pos hv)
  case refused =>
    simp only [exec, execWrreg, if_neg (Nat.not_le.mpr hr), if_neg (Nat.not_lt.mpr hv),
      guard_of_enforce hguard hps]
    rfl
  case failed =>
    simp only [exec, execWrreg, if_neg (Nat.not_le.mpr hr), if_neg (Nat.not_lt.mpr hv),
      guard_eq_none.mpr hpass, hazardCheck_cfg, busWrite_hazardCheck_failed h0, frameCmd3, hiByte_ofNat hv,
      loByte_ofNat]
    rfl
  case sent =>
    simp only [exec, execWrreg, if_neg (Nat.not_le.mpr hr), if_neg (Nat.not_lt.mpr hv),
      guard_eq_none.mpr hpass, hazardCheck_cfg, busWrite_hazardCheck_done h0, frameCmd3, hiByte_ofNat hv,
      loByte_ofNat]
    rfl

/-! RDSAMPLE. -/

/-- What RDSAMPLE answers to the result of its read (R44, R62, R91). -/
def rdsampleAnswer : ReadResult → Response
  | .ok [b0, b1] => ⟨none, some (.word (sampleValue b0 b1))⟩
  | _ => ⟨some .readFailed, none⟩

/-- R91: past its guard RDSAMPLE reads and answers what the read gives. -/
theorem exec_rdsample_read {s : State}
    (hpass : s.cfg.modeGuard = .passthrough ∨ s.ps = .normalOperation) : exec .rdsample s =
      .next ((s.afterTraffic [.read s.busAddr 2 (readResult 2 (s.replyAt 0))] s.ps
        s.settleRemaining).respond (rdsampleAnswer (readResult 2 (s.replyAt 0)))) := by
  simp only [exec, execRdsample, guard_eq_none.mpr hpass, hazardCheck_eq_afterTraffic, busRead_afterTraffic,
    busTransactions_nil, List.nil_append]
  generalize readResult 2 (s.replyAt 0) = res
  match res with
  | .ok [b0, b1] => rfl
  | .fail | .ok [] | .ok [_] | .ok (_ :: _ :: _ :: _) => rfl

/-- Settles O6: the last two clauses are the two answers of `rdsampleAnswer`. -/
theorem rdsampleReadsFourteenBits : Obligations.RdsampleReadsFourteenBits := by
  unfold Obligations.RdsampleReadsFourteenBits
  refine ⟨fun s hguard hps => ?refused, fun s hpass h0 => ?notRead, fun s b0 b1 hpass h0 => ?read⟩
  case refused =>
    simp only [exec, execRdsample, guard_of_enforce hguard hps]
    rfl
  case notRead =>
    rw [exec_rdsample_read hpass, readResult_eq_fail.mpr h0]
    rfl
  case read =>
    rw [exec_rdsample_read hpass, (readResult_eq_ok (n := 2)).mpr ⟨h0, rfl⟩, rdsampleAnswer,
      sampleValue_eq_ofNat]
    rfl

/-! SETADDR. -/

/-- Settles O8: the two checks of SETADDR, in order. -/
theorem setaddrChangesTheAddressOnce : Obligations.SetaddrChangesTheAddressOnce := by
  unfold Obligations.SetaddrChangesTheAddressOnce
  refine ⟨fun s a ha => ?outOfRange, fun s a ha hguard hchanged => ?again, fun s a ha hfree => ?changes⟩
  case outOfRange => exact if_pos ha
  case again => exact (if_neg (Nat.not_lt.mpr ha)).trans (if_pos ⟨hguard, hchanged⟩)
  case changes =>
    have hfirst : ¬ (s.cfg.modeGuard = .enforce ∧ s.addrChanged = true) := by
      rintro ⟨hguard, hchanged⟩
      simp [hguard, hchanged] at hfree
    exact (if_neg (Nat.not_lt.mpr ha)).trans (if_neg hfirst)

end Sys2Proof.Machine
end

section
/-! The guard and the tracked state (40_protocol.md R85, R95, R112), said once: `exec_answers` gives for every
operation in every state the response and the tracked state, as one of the cases of `Answer`. The operations of
R87 to R91 and R93 are read off their clauses above. -/

namespace Sys2Proof.Machine

/-- The tracked state the guard of an operation asks for (R87 to R91); none for an operation without a guard. -/
def guardedBy : Instr → Option ProtoState
  | .startcm => some .poweredIdle
  | .startnom | .rdreg _ | .wrreg _ _ => some .commandMode
  | .rdsample => some .normalOperation
  | _ => none

/-- The tracked state that an operation leaves when it ends with this error, or with none (R86 to R92). -/
def trackedAfter (s : State) : Instr → Option Cause → ProtoState
  | .pwrcyc, _ => .poweredIdle
  | .startcm, none => if s.ps = .poweredIdle then .commandMode else .unknown
  | .startnom, none => if s.ps = .commandMode then .normalOperation else .unknown
  | .startcm, some .sendFailed | .startnom, some .sendFailed => .unknown
  | .sleep d, _ => if s.ps = .poweredIdle ∧ 0 < d then .unknown else s.ps
  | _, _ => s.ps

/-- `Answer s i r t`: from `s` the operation `i` may answer `r` and leave the state `t`. -/
inductive Answer (s : State) : Instr → Response → State → Prop where
  /-- R85: refused for the tracked state. -/
  | wrongState {i : Instr} {p : ProtoState} (hi : guardedBy i = some p)
      (hguard : s.cfg.modeGuard = .enforce) (hps : s.ps ≠ p) :
      Answer s i ⟨some (.wrongState s.ps), none⟩ (s.respond ⟨some (.wrongState s.ps), none⟩)
  /-- R93: refused for the address already changed. -/
  | addressAlreadyChanged (a : Nat) (hguard : s.cfg.modeGuard = .enforce)
      (hchanged : s.addrChanged = true) :
      Answer s (.setaddr a) ⟨some (.addressAlreadyChanged s.busAddr), none⟩
        (s.respond ⟨some (.addressAlreadyChanged s.busAddr), none⟩)
  /-- Ended by an error of another class, before the bus or on it. -/
  | failed {i : Instr} {c : Cause} {v : Option Value} {t : State} (hc : c.status ≠ .modeError)
      (hps : t.ps = trackedAfter s i (some c)) : Answer s i ⟨some c, v⟩ t
  /-- Success, which the guard has allowed. -/
  | done {i : Instr} {v : Option Value} {t : State}
      (hpass : ∀ p, guardedBy i = some p → s.cfg.modeGuard = .passthrough ∨ s.ps = p)
      (hps : t.ps = trackedAfter s i none) : Answer s i ⟨none, v⟩ t

/-- The result `res` of performing `i` from `s` is a next state, as one of the cases of `Answer`. -/
def Answers (s : State) (i : Instr) (res : Result) : Prop :=
  ∃ (r : Response) (t : State), res = .next t ∧ t.responses = s.responses ++ [r] ∧ Answer s i r t

section
variable {s t : State} {i : Instr}

theorem Answer.done_of_guard {p : ProtoState} {v : Option Value} (hi : guardedBy i = some p)
    (hpass : s.cfg.modeGuard = .passthrough ∨ s.ps = p) (hps : t.ps = trackedAfter s i none) :
    Answer s i ⟨none, v⟩ t :=
  .done (fun _ hq => Option.some.inj (hi.symm.trans hq) ▸ hpass) hps

theorem Answer.done_of_no_guard {v : Option Value} (hi : guardedBy i = none)
    (hps : t.ps = trackedAfter s i none) : Answer s i ⟨none, v⟩ t :=
  .done (fun _ hp => nomatch hi.symm.trans hp) hps

/-- R85: the two ways through a guard. -/
theorem guard_cases (s : State) (p : ProtoState) :
    (s.cfg.modeGuard = .enforce ∧ s.ps ≠ p) ∨ (s.cfg.modeGuard = .passthrough ∨ s.ps = p) := by
  cases hmode : s.cfg.modeGuard with
  | passthrough => exact .inr (.inl rfl)
  | enforce => exact (ne_or_eq s.ps p).imp (⟨rfl, ·⟩) .inr

/-- R31: a reply to a read of `n` bytes fails it or delivers `n` bytes. -/
theorem reply_cases (n : Nat) (reply : TransportReply) :
    (reply = .failed ∨ ∃ bytes : List Byte, reply = .done bytes ∧ bytes.length ≠ n) ∨
      ∃ bytes : List Byte, reply = .done bytes ∧ bytes.length = n := by
  cases reply with
  | failed => exact .inl (.inl rfl)
  | done bytes => exact (ne_or_eq bytes.length n).imp (.inr ⟨bytes, rfl, ·⟩) (⟨bytes, rfl, ·⟩)

end

/-! Each operation is one of the cases. -/

section
variable (s : State)

theorem exec_startcm_answers : Answers s .startcm (exec .startcm s) := by
  obtain ⟨hrefused, hfailed, hsent⟩ := startcmSendsTheByteAndEntersCommandMode
  obtain ⟨hguard, hps⟩ | hpass := guard_cases s .poweredIdle
  · exact ⟨_, _, hrefused s hguard hps, rfl, .wrongState rfl hguard hps⟩
  · cases h0 : s.replyAt 0 with
    | failed => exact ⟨_, _, hfailed s hpass h0, rfl, .failed nofun rfl⟩
    | done reply => exact ⟨_, _, hsent s reply hpass h0, rfl, .done_of_guard rfl hpass rfl⟩

theorem exec_startnom_answers : Answers s .startnom (exec .startnom s) := by
  obtain ⟨hrefused, hfailed, hsent⟩ := startnomSendsTheByteAndEntersNormalOperation
  obtain ⟨hguard, hps⟩ | hpass := guard_cases s .commandMode
  · exact ⟨_, _, hrefused s hguard hps, rfl, .wrongState rfl hguard hps⟩
  · cases h0 : s.replyAt 0 with
    | failed => exact ⟨_, _, hfailed s hpass h0, rfl, .failed nofun rfl⟩
    | done reply => exact ⟨_, _, hsent s reply hpass h0, rfl, .done_of_guard rfl hpass rfl⟩

theorem exec_rdreg_answers (r : Nat) : Answers s (.rdreg r) (exec (.rdreg r) s) := by
  obtain ⟨hindex, hrefused, hnotSent, hnotRead, hbadStatus, hread⟩ := rdregReadsAndValidatesTheReply
  obtain hr | hr := Nat.lt_or_ge r s.cfg.nreg
  · obtain ⟨hguard, hps⟩ | hpass := guard_cases s .commandMode
    · exact ⟨_, _, hrefused s r hr hguard hps, rfl, .wrongState rfl hguard hps⟩
    cases h0 : s.replyAt 0 with
    | failed => exact ⟨_, _, hnotSent s r hr hpass h0, rfl, .failed nofun rfl⟩
    | done reply =>
      obtain hfail | ⟨bytes, h1, hlen⟩ := reply_cases 3 (s.replyAt 1)
      · exact ⟨_, _, hnotRead s r reply hr hpass h0 hfail, rfl, .failed nofun rfl⟩
      obtain ⟨st, d1, d0, rfl⟩ := List.length_eq_three.mp hlen
      by_cases hst : st = s.cfg.statusOk
      · exact ⟨_, _, hread s r reply d1 d0 hr hpass h0 (hst ▸ h1), rfl, .done_of_guard rfl hpass rfl⟩
      · exact ⟨_, _, hbadStatus s r reply st d1 d0 hr hpass h0 h1 hst, rfl, .failed nofun rfl⟩
  · exact ⟨_, _, hindex s r hr, rfl, .failed nofun rfl⟩

theorem exec_wrreg_answers (r v : Nat) : Answers s (.wrreg r v) (exec (.wrreg r v) s) := by
  obtain ⟨hindex, hvalue, hrefused, hfailed, hsent⟩ := wrregSendsTheFrameAndOwesTheSettle
  obtain hr | hr := Nat.lt_or_ge r s.cfg.nreg
  · obtain hv | hv := Nat.lt_or_ge 0xFFFF v
    · exact ⟨_, _, hvalue s r v hr hv, rfl, .failed nofun rfl⟩
    obtain ⟨hguard, hps⟩ | hpass := guard_cases s .commandMode
    · exact ⟨_, _, hrefused s r v hr hv hguard hps, rfl, .wrongState rfl hguard hps⟩
    cases h0 : s.replyAt 0 with
    | failed => exact ⟨_, _, hfailed s r v hr hv hpass h0, rfl, .failed nofun rfl⟩
    | done reply => exact ⟨_, _, hsent s r v reply hr hv hpass h0, rfl, .done_of_guard rfl hpass rfl⟩
  · exact ⟨_, _, hindex s r v hr, rfl, .failed nofun rfl⟩

theorem exec_rdsample_answers : Answers s .rdsample (exec .rdsample s) := by
  obtain ⟨hrefused, hnotRead, hread⟩ := rdsampleReadsFourteenBits
  obtain ⟨hguard, hps⟩ | hpass := guard_cases s .normalOperation
  · exact ⟨_, _, hrefused s hguard hps, rfl, .wrongState rfl hguard hps⟩
  obtain hfail | ⟨bytes, h0, hlen⟩ := reply_cases 2 (s.replyAt 0)
  · exact ⟨_, _, hnotRead s hpass hfail, rfl, .failed nofun rfl⟩
  obtain ⟨b0, b1, rfl⟩ := List.length_eq_two.mp hlen
  exact ⟨_, _, hread s b0 b1 hpass h0, rfl, .done_of_guard rfl hpass rfl⟩

theorem exec_setaddr_answers (a : Nat) : Answers s (.setaddr a) (exec (.setaddr a) s) := by
  obtain ⟨houtOfRange, hagain, hchanges⟩ := setaddrChangesTheAddressOnce
  obtain ha | ha := Nat.lt_or_ge 0x7F a
  · exact ⟨_, _, houtOfRange s a ha, rfl, .failed nofun rfl⟩
  by_cases h : s.cfg.modeGuard = .enforce ∧ s.addrChanged = true
  · obtain ⟨hguard, hchanged⟩ := h
    exact ⟨_, _, hagain s a ha hguard hchanged, rfl, .addressAlreadyChanged a hguard hchanged⟩
  · have hfree : s.cfg.modeGuard = .passthrough ∨ s.addrChanged = false := by
      cases hmode : s.cfg.modeGuard with
      | passthrough => exact .inl rfl
      | enforce => simpa [hmode] using h
    exact ⟨_, _, hchanges s a ha hfree, rfl, .done_of_no_guard rfl rfl⟩

/-- R112: no codec operation raises a ModeError. -/
theorem exec_codec_answers {i : Instr} (hi : isCodec i = true) : Answers s i (exec i s) := by
  cases i with
  | encCfg1 rec =>
    simp only [exec, execEncCfg1]
    split
    · exact ⟨_, _, rfl, rfl, .failed nofun rfl⟩
    · exact ⟨_, _, rfl, rfl, .done_of_no_guard rfl rfl⟩
  | encCfg2 rec =>
    simp only [exec, execEncCfg2]
    split
    · exact ⟨_, _, rfl, rfl, .failed nofun rfl⟩
    split
    · exact ⟨_, _, rfl, rfl, .failed nofun rfl⟩
    · exact ⟨_, _, rfl, rfl, .done_of_no_guard rfl rfl⟩
  | encBridge rec =>
    simp only [exec, execEncBridge]
    split
    · exact ⟨_, _, rfl, rfl, .failed nofun rfl⟩
    split
    · exact ⟨_, _, rfl, rfl, .failed nofun rfl⟩
    split
    · exact ⟨_, _, rfl, rfl, .failed nofun rfl⟩
    all_goals exact ⟨_, _, rfl, rfl, .done_of_no_guard rfl rfl⟩
  | decBridge v =>
    simp only [exec, execDecBridge]
    split
    · exact ⟨_, _, rfl, rfl, .failed nofun rfl⟩
    · exact ⟨_, _, rfl, rfl, .done_of_no_guard rfl rfl⟩
  | encGain g =>
    simp only [exec, execEncGain]
    split
    · exact ⟨_, _, rfl, rfl, .failed nofun rfl⟩
    · exact ⟨_, _, rfl, rfl, .done_of_no_guard rfl rfl⟩
  | decCfg1 | decCfg2 | decFactid | decGain => exact ⟨_, _, rfl, rfl, .done_of_no_guard rfl rfl⟩
  | pwrcyc | startcm | startnom | rdreg | wrreg | rdsample | sleep | setaddr => cases hi

/-- Every operation in every state ends in one of the cases of `Answer`. -/
theorem exec_answers (i : Instr) : Answers s i (exec i s) := by
  cases i with
  | pwrcyc => exact ⟨_, _, exec_pwrcyc s, rfl, .done_of_no_guard rfl rfl⟩
  | startcm => exact exec_startcm_answers s
  | startnom => exact exec_startnom_answers s
  | rdreg r => exact exec_rdreg_answers s r
  | wrreg r v => exact exec_wrreg_answers s r v
  | rdsample => exact exec_rdsample_answers s
  | sleep t => exact ⟨_, _, exec_sleep s t, rfl, .done_of_no_guard rfl rfl⟩
  | setaddr a => exact exec_setaddr_answers s a
  | encCfg1 | decCfg1 | encCfg2 | decCfg2 | encBridge | decBridge | decFactid | encGain | decGain =>
    exact exec_codec_answers s rfl

end

/-! What follows from the cases. -/

section
variable {s t : State} {i : Instr} {r : Response}

/-- The case of an operation whose next state and response are given. -/
theorem answer_of_exec (h : exec i s = .next t) (hr : t.responses = s.responses ++ [r]) : Answer s i r t := by
  obtain ⟨r', t', hexec, hr', ha⟩ := exec_answers s i
  cases h.symm.trans hexec
  rw [hr, List.append_cancel_left_eq, List.singleton_inj] at hr'
  exact hr' ▸ ha

/-- R85, R93, R112: a ModeError arises only under `enforce`, and adds nothing but its response. -/
theorem Answer.of_modeError (h : Answer s i r t) (hmode : r.status = .modeError) :
    s.cfg.modeGuard = .enforce ∧ t = s.respond r := by
  cases h with
  | wrongState _ hguard | addressAlreadyChanged _ hguard => exact ⟨hguard, rfl⟩
  | failed hc => exact absurd hmode hc
  | done => cases hmode

/-- R85: under `enforce` an operation with a guard succeeds only in the state its guard asks for. -/
theorem Answer.ps_of_done {p : ProtoState} (h : Answer s i r t) (hguard : s.cfg.modeGuard = .enforce)
    (hok : r.error = none) (hi : guardedBy i = some p) : s.ps = p := by
  cases h with
  | done hpass => simpa [hguard] using hpass p hi
  | wrongState | addressAlreadyChanged | failed => cases hok

theorem Answer.ne_wrongState (h : Answer s i r t) (hi : guardedBy i = none) (p : ProtoState) :
    r.error ≠ some (.wrongState p) := by
  intro herror
  cases h with
  | wrongState hp => cases hi.symm.trans hp
  | failed hc => exact hc (Option.some.inj herror ▸ rfl)
  | addressAlreadyChanged | done => cases herror

/-- A guard stands before the operations that can change the tracked state only past it. -/
theorem trackedAfter_wrongState {p : ProtoState} (hi : guardedBy i = some p) (q : ProtoState) :
    trackedAfter s i (some (.wrongState q)) = s.ps := by
  cases i with
  | startcm | startnom | rdreg | wrreg | rdsample => rfl
  | pwrcyc | sleep | setaddr | encCfg1 | decCfg1 | encCfg2 | decCfg2 | encBridge | decBridge | decFactid
  | encGain | decGain => cases hi

theorem Answer.ps_eq (h : Answer s i r t) : t.ps = trackedAfter s i r.error := by
  cases h with
  | wrongState hi => exact (trackedAfter_wrongState hi _).symm
  | addressAlreadyChanged => rfl
  | failed _ hps | done _ hps => exact hps

theorem guardedBy_of_isCodec (hi : isCodec i = true) : guardedBy i = none := by
  unfold guardedBy
  split
  case h_6 => rfl
  all_goals cases hi

end

/-- Settles O34: the two refusals of `Answer` are under `enforce`. -/
theorem passthroughNeverRefuses : Obligations.PassthroughNeverRefuses := by
  unfold Obligations.PassthroughNeverRefuses
  intro i s t r hguard hexec hr hmode
  obtain ⟨henforce, -⟩ := (answer_of_exec hexec hr).of_modeError hmode
  cases hguard.symm.trans henforce

/-- Settles O33: `trackedAfter` is the summary of R95 once the guard is known to have been passed. -/
theorem trackedStateFollowsTheTransitions : Obligations.TrackedStateFollowsTheTransitions := by
  unfold Obligations.TrackedStateFollowsTheTransitions
  intro i s t r hguard hexec hr
  have ha := answer_of_exec hexec hr
  refine ⟨?tracked, fun hmode => (ha.of_modeError hmode).2, ?startcm, ?startnom, ?rdreg, ?wrreg,
    ?rdsample, ?unguarded⟩
  case tracked =>
    rw [ha.ps_eq]
    cases i with
    | startcm | startnom =>
      cases herror : r.error with
      | none => exact if_pos (ha.ps_of_done hguard herror rfl)
      | some c => cases c <;> rfl
    | pwrcyc | rdreg | wrreg | rdsample | sleep | setaddr | encCfg1 | decCfg1 | encCfg2 | decCfg2 | encBridge
    | decBridge | decFactid | encGain | decGain => rfl
  case unguarded =>
    intro hi
    refine ha.ne_wrongState ?_
    obtain hcodec | ⟨d, rfl⟩ | ⟨a, rfl⟩ := hi
    · exact guardedBy_of_isCodec hcodec
    · rfl
    · rfl
  case startcm | startnom | rdsample =>
    rintro hok rfl
    exact ha.ps_of_done hguard hok rfl
  case rdreg =>
    rintro hok n rfl
    exact ha.ps_of_done hguard hok rfl
  case wrreg =>
    rintro hok n v rfl
    exact ha.ps_of_done hguard hok rfl

end Sys2Proof.Machine
end

section
/-! Packed registers (20_memory.md R46, 41_config_codec.md R96 to R100): a register value is the union of codes
placed one above the other, and each field read from it is the code placed there. -/

namespace Sys2Proof.Machine

/-- A field code with the lowest bit and the width of its field. -/
structure Placed where
  code : Nat
  lo : Nat
  width : Nat

/-- The word of several placed codes. -/
def pack : List Placed → Word
  | [] => 0#16
  | f :: fs => place f.code f.lo ||| pack fs

/-- Every code fits its field, and the fields lie in the word in ascending order without overlap. -/
structure Packable (fs : List Placed) : Prop where
  fits : ∀ f ∈ fs, f.code < 2 ^ f.width
  inWord : ∀ f ∈ fs, f.lo + f.width ≤ 16
  ascending : fs.Pairwise fun f g => f.lo + f.width ≤ g.lo

theorem field_zero (lo width : Nat) : field 0#16 lo width = 0#width := by
  apply BitVec.eq_of_toNat_eq
  simp [field_toNat]

theorem field_or (v w : Word) (lo width : Nat) :
    field (v ||| w) lo width = field v lo width ||| field w lo width := by
  apply BitVec.eq_of_getLsbD_eq
  intro i hi
  simp only [BitVec.getLsbD_or, field_getLsbD, Bool.and_or_distrib_left]

theorem field_place {lo width : Nat} (h : lo + width ≤ 16) (n : Nat) :
    field (place n lo) lo width = BitVec.ofNat width n := by
  apply BitVec.eq_of_getLsbD_eq
  intro i hi
  have hword : lo + i < 16 := by omega
  rw [field_getLsbD, getLsbD_place, BitVec.getLsbD_ofNat]
  simp [hi, hword]

/-- A field above a placed code. -/
theorem field_place_of_le {n lo w : Nat} (hn : n < 2 ^ w) {lo' : Nat} (h : lo + w ≤ lo') (width : Nat) :
    field (place n lo) lo' width = 0#width := by
  apply BitVec.eq_of_getLsbD_eq
  intro i hi
  have hbit : n.testBit (lo' + i - lo) = false :=
    Nat.testBit_lt_two_pow (hn.trans_le (Nat.pow_le_pow_right (by decide) (by omega)))
  simp [field_getLsbD, getLsbD_place, hbit]

/-- A field below a placed code. -/
theorem field_place_of_ge {lo lo' width : Nat} (h : lo' + width ≤ lo) (n : Nat) :
    field (place n lo) lo' width = 0#width := by
  apply BitVec.eq_of_getLsbD_eq
  intro i hi
  have hlo : ¬ lo ≤ lo' + i := by omega
  simp [field_getLsbD, getLsbD_place, hlo]

theorem field_pack_of_ge {lo width : Nat} {fs : List Placed} (h : ∀ f ∈ fs, lo + width ≤ f.lo) :
    field (pack fs) lo width = 0#width := by
  induction fs with
  | nil => exact field_zero lo width
  | cons f fs ih =>
    obtain ⟨hf, hfs⟩ := List.forall_mem_cons.mp h
    rw [pack, field_or, field_place_of_ge hf, ih hfs, BitVec.or_self]

/-- Each field of a packed word is the code placed there. -/
theorem field_pack {fs : List Placed} (h : Packable fs) :
    ∀ f ∈ fs, field (pack fs) f.lo f.width = BitVec.ofNat f.width f.code := by
  induction fs with
  | nil => exact fun f hf => absurd hf List.not_mem_nil
  | cons f fs ih =>
    obtain ⟨hfits, hword, hasc⟩ := h
    obtain ⟨hfit, hfits⟩ := List.forall_mem_cons.mp hfits
    obtain ⟨hin, hword⟩ := List.forall_mem_cons.mp hword
    obtain ⟨habove, hasc⟩ := List.pairwise_cons.mp hasc
    refine List.forall_mem_cons.mpr ⟨?_, fun g hg => ?_⟩
    · rw [pack, field_or, field_place hin, field_pack_of_ge habove, BitVec.or_zero]
    · rw [pack, field_or, field_place_of_le hfit (habove g hg), ih ⟨hfits, hword, hasc⟩ g hg,
        BitVec.zero_or]

/-- A flag is the field of its one bit. -/
theorem bit_eq_of_field {v : Word} {i n : Nat} (h : field v i 1 = BitVec.ofNat 1 n) :
    bit v i = n.testBit 0 := by
  have hbit : bit v i = (field v i 1).getLsbD 0 := (field_getLsbD v i 1 0).symm
  rw [hbit, h, BitVec.getLsbD_ofNat]
  rfl

/-! The three configuration registers, packed. -/

/-- R64: bits 2..0 hold 0b001 and bit 8 holds 0. -/
def config1Layout (r : ZmdiConfig1Codes) : List Placed :=
  [⟨0b001, 0, 3⟩, ⟨r.clockSpeed, 3, 1⟩, ⟨r.commType, 4, 1⟩, ⟨r.sleepMode, 5, 1⟩, ⟨r.updateRate, 6, 2⟩,
    ⟨0, 8, 1⟩, ⟨r.curveShape, 9, 1⟩, ⟨r.polTco, 10, 1⟩, ⟨r.polTcg, 11, 1⟩, ⟨r.polSotBridge, 12, 1⟩,
    ⟨r.polSotOffsetTemp, 13, 1⟩, ⟨r.polSotGainTemp, 14, 1⟩, ⟨r.polSotLinTemp, 15, 1⟩]

/-- R67 -/
def config2Layout (r : ZmdiConfig2Codes) : List Placed :=
  [⟨r.altBusPolarity, 0, 1⟩, ⟨r.connCheck, 1, 1⟩, ⟨r.shortCheck, 2, 1⟩, ⟨r.address, 3, 7⟩,
    ⟨r.addrLock.code, 10, 3⟩, ⟨r.eepromLock.code, 13, 3⟩]

/-- R69 -/
def bridgeLayout (r : BridgeConfigCodes) : List Placed :=
  [⟨r.preampOffset, 0, 4⟩, ⟨r.preampGain.code, 4, 3⟩, ⟨r.polarity, 7, 1⟩, ⟨r.longIntegration, 8, 1⟩,
    ⟨r.bSink, 9, 1⟩, ⟨r.mux.code, 10, 2⟩, ⟨r.disableNulling, 12, 1⟩]

theorem encConfig1Word_eq_pack (r : ZmdiConfig1Codes) : encConfig1Word r = pack (config1Layout r) := by
  have hfixed : place 0b001 0 = 0b001 := rfl
  simp only [encConfig1Word, config1Layout, pack, hfixed, BitVec.or_assoc, BitVec.or_zero]

theorem encConfig2Word_eq_pack (r : ZmdiConfig2Codes) : encConfig2Word r = pack (config2Layout r) := by
  simp only [encConfig2Word, config2Layout, pack, BitVec.or_assoc, BitVec.or_zero]

theorem encBridgeWord_eq_pack (r : BridgeConfigCodes) : encBridgeWord r = pack (bridgeLayout r) := by
  simp only [encBridgeWord, bridgeLayout, pack, BitVec.or_assoc, BitVec.or_zero]

theorem lock_code_lt (l : Lock) : l.code < 2 ^ 3 := by cases l <;> decide

theorem mux_code_lt (m : MuxMode) : m.code < 2 ^ 2 := by
  cases m with
  | fullBridge | halfBridge => decide
  | invalid c => exact c.isLt.trans (by decide)

theorem config1Layout_packable {r : ZmdiConfig1Codes} (h : r.wellFormed = true) :
    Packable (config1Layout r) where
  fits := by
    have hcodes := (ZmdiConfig1Codes_wellFormed_iff r).mp h
    simp only [config1Fields, List.forall_mem_cons, List.not_mem_nil, false_imp_iff, implies_true, and_true]
      at hcodes
    simp only [config1Layout, List.forall_mem_cons, List.not_mem_nil, false_imp_iff, implies_true, and_true]
    omega
  inWord := by simp [config1Layout]
  ascending := by simp [config1Layout]

theorem config2Layout_packable {r : ZmdiConfig2Codes} (h : r.wellFormed = true) :
    Packable (config2Layout r) where
  fits := by
    obtain ⟨hcodes, haddress⟩ := (ZmdiConfig2Codes_wellFormed_iff r).mp h
    have haddr := lock_code_lt r.addrLock
    have heeprom := lock_code_lt r.eepromLock
    simp only [config2Fields, List.forall_mem_cons, List.not_mem_nil, false_imp_iff, implies_true, and_true]
      at hcodes
    simp only [config2Layout, List.forall_mem_cons, List.not_mem_nil, false_imp_iff, implies_true, and_true]
    omega
  inWord := by simp [config2Layout]
  ascending := by simp [config2Layout]

theorem bridgeLayout_packable {r : BridgeConfigCodes} (h : r.wellFormed = true) :
    Packable (bridgeLayout r) where
  fits := by
    obtain ⟨hoffset, hcodes⟩ := (BridgeConfigCodes_wellFormed_iff r).mp h
    have hgain := preampGain_code_lt r.preampGain
    have hmux := mux_code_lt r.mux
    simp only [bridgeFields, List.forall_mem_cons, List.not_mem_nil, false_imp_iff, implies_true, and_true]
      at hcodes
    simp only [bridgeLayout, List.forall_mem_cons, List.not_mem_nil, false_imp_iff, implies_true, and_true]
    omega
  inWord := by simp [bridgeLayout]
  ascending := by simp [bridgeLayout]

end Sys2Proof.Machine
end

section
/-! The configuration codec (41_config_codec.md R96 to R103): what the encoders answer, what the decoders read, and
that each undoes the other (R102). -/

namespace Sys2Proof.Machine

/-- Settles O27: `exec_codec`, with the response in its field. -/
theorem codecOperationsArePure : Obligations.CodecOperationsArePure := by
  unfold Obligations.CodecOperationsArePure
  exact fun _ hi => exec_codec hi

/-! ENC_CFG1. -/

/-- R96: of a record with a code out of range, such a code is reported. -/
theorem exec_encCfg1_of_not_wellFormed {r : ZmdiConfig1Codes} (h : r.wellFormed = false) :
    ∃ p ∈ config1Fields r, p.2 < p.1 ∧
      ∀ s : State, exec (.encCfg1 r) s = .next (s.respond ⟨some (.fieldRange p.1), none⟩) := by
  cases hrange : outOfRange (Config.reportedField (.encCfg1 r)) (config1Fields r) with
  | none =>
    have hwf := (ZmdiConfig1Codes_wellFormed_iff r).mpr (outOfRange_eq_none.mp hrange)
    rw [hwf] at h
    cases h
  | some n =>
    obtain ⟨p, hp, hlt, rfl⟩ := outOfRange_eq_some hrange
    exact ⟨p, hp, hlt, fun s => by simp only [exec, execEncCfg1, hrange, raise]⟩

theorem encConfig1Word_eq_ofNat (r : ZmdiConfig1Codes) : encConfig1Word r = BitVec.ofNat 16
    (0b001 ||| r.clockSpeed <<< 3 ||| r.commType <<< 4 ||| r.sleepMode <<< 5 ||| r.updateRate <<< 6 |||
      r.curveShape <<< 9 ||| r.polTco <<< 10 ||| r.polTcg <<< 11 ||| r.polSotBridge <<< 12 |||
      r.polSotOffsetTemp <<< 13 ||| r.polSotGainTemp <<< 14 ||| r.polSotLinTemp <<< 15) := by
  have hfixed : (0b001 : Word) = BitVec.ofNat 16 0b001 := rfl
  have hreserved : place 0 8 = 0#16 := rfl
  simp only [encConfig1Word, hfixed, hreserved, BitVec.or_zero, place_eq_ofNat, BitVec.ofNat_or]

/-- Settles O9: the range check decides the clause, and the packed word is the union R96 writes out. -/
theorem encCfg1PacksTheFields : Obligations.EncCfg1PacksTheFields := by
  unfold Obligations.EncCfg1PacksTheFields
  refine ⟨fun s r hwf => ?inRange, fun s r hwf => ?outOfRange⟩
  case inRange =>
    rw [← encConfig1Word_eq_ofNat]
    exact exec_encCfg1_of_wellFormed hwf s
  case outOfRange =>
    obtain ⟨p, hp, hlt, hexec⟩ := exec_encCfg1_of_not_wellFormed hwf
    exact ⟨p, hp, hlt, hexec s⟩

/-! What the decoders read, in numbers. -/

theorem field_toNat_low (v : Word) (width : Nat) : (field v 0 width).toNat = v.toNat % 2 ^ width := by
  rw [field_toNat, Nat.pow_zero, Nat.div_one]

theorem getElem?_updateRateOf (c : BitVec 2) :
    [UpdateRate.fastest, .faster, .slower, .slowest][c.toNat]? = some (updateRateOf c) := by
  revert c; decide

/-- Settles O10: the record is `decConfig1Record`, whose one field of two bits is the update rate. -/
theorem decCfg1ReadsTheFields : Obligations.DecCfg1ReadsTheFields := by
  unfold Obligations.DecCfg1ReadsTheFields
  intro s v
  have hrate : [UpdateRate.fastest, .faster, .slower, .slowest][v.toNat / 2 ^ 6 % 2 ^ 2]? =
      some (decConfig1Record v).updateRate := by
    rw [← field_toNat]
    exact getElem?_updateRateOf _
  exact ⟨decConfig1Record v, rfl, rfl, rfl, rfl, hrate, rfl, rfl, rfl, rfl, rfl, rfl, rfl⟩

/-- R99: a lock field is locked exactly for 0b011. -/
theorem lockOf_field_eq_locked (v : Word) (lo : Nat) :
    lockOf (field v lo 3) = .locked ↔ v.toNat / 2 ^ lo % 8 = 0b011 := by
  rw [lockOf_eq_locked, field_toNat]
  rfl

/-- Settles O12: the record is `decConfig2Record`. -/
theorem decCfg2ReadsTheFields : Obligations.DecCfg2ReadsTheFields := by
  unfold Obligations.DecCfg2ReadsTheFields
  intro s v
  exact ⟨decConfig2Record v, rfl, rfl, rfl, rfl, field_toNat v 3 7, lockOf_field_eq_locked v 10,
    lockOf_field_eq_locked v 13⟩

/-- R101: with bit 11 the mux code is 0b10 or 0b11. -/
theorem exec_decBridge_valid {v : Word} (h : v.getLsbD 11 = true) (s : State) :
    exec (.decBridge v) s = .next (s.respond ⟨none, some (.bridge (decBridgeRecord v))⟩) := by
  have hmux : ¬ (field v 10 2 = 0b00 ∨ field v 10 2 = 0b01) := by
    have hhigh : (field v 10 2).getLsbD 1 = true := (field_getLsbD v 10 2 1).trans h
    generalize field v 10 2 = m at hhigh
    revert m
    decide
  simp only [exec, execDecBridge, if_neg hmux, finish]

/-- The mux by the two bits of its field (R71). -/
theorem muxOf_field (v : Word) : muxOf (field v 10 2) =
    if v.getLsbD 11 then (if v.getLsbD 10 then .halfBridge else .fullBridge)
    else .invalid (BitVec.ofNat 1 (v.toNat / 2 ^ 10 % 2)) := by
  have hhigh : (field v 10 2).getLsbD 1 = v.getLsbD 11 := field_getLsbD v 10 2 1
  have hlow : (field v 10 2).getLsbD 0 = v.getLsbD 10 := field_getLsbD v 10 2 0
  have hcode : (field v 10 2).toNat % 2 = v.toNat / 2 ^ 10 % 2 := by
    rw [field_toNat]
    exact Nat.mod_mod_of_dvd _ (by decide)
  rw [muxOf_eq, hhigh, hlow, hcode]

/-- Settles O14: bit 11 decides the answer, and the record is `decBridgeRecord` either way. -/
theorem decBridgeReadsTheFieldsAndFlagsTheMux : Obligations.DecBridgeReadsTheFieldsAndFlagsTheMux := by
  unfold Obligations.DecBridgeReadsTheFieldsAndFlagsTheMux
  intro s v
  refine ⟨decBridgeRecord v, ?answer, ?offset, ?gain, field_toNat v 7 1, rfl, rfl, muxOf_field v, rfl⟩
  case answer =>
    cases hbit : v.getLsbD 11 with
    | true => exact exec_decBridge_valid hbit s
    | false =>
      have hcode : BitVec.ofNat 2 (v.toNat / 2 ^ 10 % 4) = field v 10 2 := by
        rw [show (4 : Nat) = 2 ^ 2 from rfl, ← field_toNat, BitVec.ofNat_toNat, BitVec.setWidth_eq]
      rw [hcode]
      exact exec_decBridge_flagged hbit s
  case offset => exact field_toNat_low v 4
  case gain => exact (code_preampGainOf _).trans (field_toNat v 4 3)

/-! Encoding and then decoding (R102, first half). -/

/-- R102: every field read from the packed word is the code it was packed with. -/
theorem decConfig1Record_encConfig1Word (x : ZmdiConfig1) :
    decConfig1Record (encConfig1Word x.codes) = x := by
  have hread := field_pack (config1Layout_packable (config1_codes_wellFormed x))
  rw [← encConfig1Word_eq_pack] at hread
  generalize encConfig1Word x.codes = w at hread ⊢
  simp only [config1Layout, List.forall_mem_cons, List.not_mem_nil, false_imp_iff, implies_true, and_true]
    at hread
  obtain ⟨-, hclock, hcomm, hsleep, hrate, -, hcurve, htco, htcg, hbridge, hoffset, hgain, hlin⟩ := hread
  have hclock' (c : ClockSpeed) : (if c.code.testBit 0 then .mhz1 else .mhz4) = c := by cases c <;> rfl
  have hcomm' (c : CommType) : (if c.code.testBit 0 then .altBus else .nativeBus) = c := by cases c <;> rfl
  have hsleep' (c : SleepMode) : (if c.code.testBit 0 then .onDemand else .continuous) = c := by
    cases c <;> rfl
  have hrate' (u : UpdateRate) : updateRateOf (BitVec.ofNat 2 u.code) = u := by cases u <;> rfl
  have hcurve' (c : CurveShape) : (if c.code.testBit 0 then .sShaped else .parabolic) = c := by
    cases c <;> rfl
  have hpol (p : Polarity) : polarityOf (p.code.testBit 0) = p := by cases p <;> rfl
  simp only [decConfig1Record, bit_eq_of_field hclock, bit_eq_of_field hcomm, bit_eq_of_field hsleep, hrate,
    bit_eq_of_field hcurve, bit_eq_of_field htco, bit_eq_of_field htcg, bit_eq_of_field hbridge,
    bit_eq_of_field hoffset, bit_eq_of_field hgain, bit_eq_of_field hlin, ZmdiConfig1.codes, hclock', hcomm',
    hsleep', hrate', hcurve', hpol]

theorem flagCode_eq_toNat (b : Bool) : flagCode b = b.toNat := by cases b <;> rfl

theorem testBit_flagCode (b : Bool) : (flagCode b).testBit 0 = b := by cases b <;> rfl

theorem config2_codes_wellFormed (x : ZmdiConfig2) : x.codes.wellFormed = true := by
  have hpolarity : x.altBusPolarity.code ≤ 1 := by cases x.altBusPolarity <;> decide
  have hflag (b : Bool) : flagCode b ≤ 1 := by cases b <;> decide
  have haddress : x.address.toNat ≤ 0x7F := Nat.le_of_lt_succ x.address.isLt
  simp [ZmdiConfig2Codes.wellFormed, ZmdiConfig2.codes, hpolarity, hflag, haddress]

theorem exec_encCfg2_of_wellFormed {r : ZmdiConfig2Codes} (h : r.wellFormed = true) (s : State) :
    exec (.encCfg2 r) s = .next (s.respond ⟨none, some (.word (encConfig2Word r))⟩) := by
  obtain ⟨hcodes, haddress⟩ := (ZmdiConfig2Codes_wellFormed_iff r).mp h
  have hrange : outOfRange (Config.reportedField (.encCfg2 r)) (config2Fields r) = none :=
    outOfRange_eq_none.mpr hcodes
  simp only [exec, execEncCfg2, if_neg (Nat.not_lt.mpr haddress), hrange, finish]

/-- R102: both lock codes decode to their lock, and the other fields are read as they were packed. -/
theorem decConfig2Record_encConfig2Word (x : ZmdiConfig2) :
    decConfig2Record (encConfig2Word x.codes) = x := by
  have hread := field_pack (config2Layout_packable (config2_codes_wellFormed x))
  rw [← encConfig2Word_eq_pack] at hread
  generalize encConfig2Word x.codes = w at hread ⊢
  simp only [config2Layout, List.forall_mem_cons, List.not_mem_nil, false_imp_iff, implies_true, and_true]
    at hread
  obtain ⟨hpolarity, hconn, hshort, haddress, haddr, heeprom⟩ := hread
  have hpolarity' (p : AltBusPolarity) : (if p.code.testBit 0 then .positive else .negative) = p := by
    cases p <;> rfl
  have hlock (l : Lock) : lockOf (BitVec.ofNat 3 l.code) = l := by cases l <;> rfl
  simp only [decConfig2Record, bit_eq_of_field hpolarity, bit_eq_of_field hconn, bit_eq_of_field hshort,
    haddress, haddr, heeprom, ZmdiConfig2.codes, hpolarity', testBit_flagCode, BitVec.ofNat_toNat,
    BitVec.setWidth_eq, hlock]

/-- R102: a valid mux code decodes to its mux, and the other fields are read as they were packed. -/
theorem decBridgeRecord_encBridgeWord {x : BridgeConfig} (h : x.mux = .fullBridge ∨ x.mux = .halfBridge) :
    decBridgeRecord (encBridgeWord x.codes) = x := by
  have hread := field_pack (bridgeLayout_packable (bridge_codes_wellFormed x))
  rw [← encBridgeWord_eq_pack] at hread
  generalize encBridgeWord x.codes = w at hread ⊢
  simp only [bridgeLayout, List.forall_mem_cons, List.not_mem_nil, false_imp_iff, implies_true, and_true]
    at hread
  obtain ⟨hoffset, hgain, hpolarity, hlong, hsink, hmux, hnulling⟩ := hread
  have hmux' : muxOf (BitVec.ofNat 2 x.mux.code) = x.mux := by obtain h | h := h <;> rw [h] <;> rfl
  simp only [decBridgeRecord, hoffset, hgain, hpolarity, bit_eq_of_field hlong, bit_eq_of_field hsink, hmux,
    bit_eq_of_field hnulling, BridgeConfig.codes, preampGainOf_code, testBit_flagCode,
    BitVec.ofNat_toNat, BitVec.setWidth_eq, hmux']

/-- Settles O19: the codes of a typed record are in range, so encoding answers the packed word, and the decoders
undo the packing. A valid mux sets bit 11, so DEC_BRIDGE does not flag the value. -/
theorem decodingAnEncodedRecordGivesItBack : Obligations.DecodingAnEncodedRecordGivesItBack := by
  unfold Obligations.DecodingAnEncodedRecordGivesItBack
  refine ⟨fun s t x => ?config1, fun s t x => ?config2, fun s t x hmux => ?bridge⟩
  case config1 =>
    refine ⟨encConfig1Word x.codes, exec_encCfg1_of_wellFormed (config1_codes_wellFormed x) s, ?_⟩
    rw [exec, execDecCfg1, decConfig1Record_encConfig1Word, finish]
  case config2 =>
    refine ⟨encConfig2Word x.codes, exec_encCfg2_of_wellFormed (config2_codes_wellFormed x) s, ?_⟩
    rw [exec, execDecCfg2, decConfig2Record_encConfig2Word, finish]
  case bridge =>
    refine ⟨encBridgeWord x.codes, exec_encBridge_of_wellFormed (bridge_codes_wellFormed x) hmux s, ?_⟩
    rw [exec_decBridge_valid (encBridgeWord_bit11 hmux), decBridgeRecord_encBridgeWord hmux]

/-! Decoding and then encoding (R102, second half). -/

/-- A ZMDIConfig2 value in its canonical form: the bits below the locks, and each lock as the code it is encoded
with (R68). -/
def canonicalConfig2 (v : Word) : List Placed :=
  [⟨(field v 0 10).toNat, 0, 10⟩, ⟨(lockOf (field v 10 3)).code, 10, 3⟩, ⟨(lockOf (field v 13 3)).code, 13, 3⟩]

theorem canonicalConfig2_packable (v : Word) : Packable (canonicalConfig2 v) where
  fits := by
    simp only [canonicalConfig2, List.forall_mem_cons, List.not_mem_nil, false_imp_iff, implies_true, and_true]
    exact ⟨(field v 0 10).isLt, lock_code_lt _, lock_code_lt _⟩
  inWord := by simp [canonicalConfig2]
  ascending := by simp [canonicalConfig2]

/-- R102: encoding a decoded ZMDIConfig2 value gives its canonical form. -/
theorem encConfig2Word_decConfig2Record (v : Word) :
    encConfig2Word (decConfig2Record v).codes = pack (canonicalConfig2 v) := by
  have hpolarity (b : Bool) : (if b then AltBusPolarity.positive else .negative).code = b.toNat := by
    cases b <;> rfl
  have hmask : mask 0 10 = mask 0 1 ||| mask 1 1 ||| mask 2 1 ||| mask 3 7 := by decide
  simp only [encConfig2Word, decConfig2Record, ZmdiConfig2.codes, canonicalConfig2, pack, hpolarity,
    flagCode_eq_toNat, place_bit, place_field, hmask, BitVec.and_or_distrib_left, BitVec.or_assoc, BitVec.or_zero]

theorem code_lockOf_field (v : Word) (lo : Nat) :
    (lockOf (field v lo 3)).code = if v.toNat / 2 ^ lo % 8 = 0b011 then 0b011 else 0b000 := by
  by_cases h : v.toNat / 2 ^ lo % 8 = 0b011
  · rw [if_pos h, (lockOf_field_eq_locked v lo).mpr h]
    rfl
  · have hunlocked : lockOf (field v lo 3) = .unlocked := by
      cases hlock : lockOf (field v lo 3) with
      | locked => exact absurd ((lockOf_field_eq_locked v lo).mp hlock) h
      | unlocked => rfl
    rw [if_neg h, hunlocked]
    rfl

theorem toNat_div_of_field_eq_lock {w : Word} {lo : Nat} {l : Lock} (h : field w lo 3 = BitVec.ofNat 3 l.code) :
    w.toNat / 2 ^ lo % 8 = l.code := by
  calc w.toNat / 2 ^ lo % 8 = (field w lo 3).toNat := (field_toNat w lo 3).symm
    _ = l.code := by rw [h, BitVec.toNat_ofNat, Nat.mod_eq_of_lt (lock_code_lt l)]

/-- The three parts of a canonical value, in numbers. -/
theorem pack_canonicalConfig2_toNat (v : Word) :
    (pack (canonicalConfig2 v)).toNat % 2 ^ 10 = v.toNat % 2 ^ 10 ∧
    (pack (canonicalConfig2 v)).toNat / 2 ^ 10 % 8 = (lockOf (field v 10 3)).code ∧
    (pack (canonicalConfig2 v)).toNat / 2 ^ 13 % 8 = (lockOf (field v 13 3)).code := by
  have hread := field_pack (canonicalConfig2_packable v)
  generalize pack (canonicalConfig2 v) = w at hread ⊢
  simp only [canonicalConfig2, List.forall_mem_cons, List.not_mem_nil, false_imp_iff, implies_true, and_true,
    BitVec.ofNat_toNat, BitVec.setWidth_eq] at hread
  obtain ⟨hlow, haddr, heeprom⟩ := hread
  refine ⟨?_, toNat_div_of_field_eq_lock haddr, toNat_div_of_field_eq_lock heeprom⟩
  rw [← field_toNat_low, hlow, field_toNat_low]

theorem code_muxOf (m : BitVec 2) : (muxOf m).code = m.toNat := by revert m; decide

/-- R102: encoding a decoded BridgeConfig value gives it back but for the reserved bits. -/
theorem encBridgeWord_decBridgeRecord (v : Word) :
    encBridgeWord (decBridgeRecord v).codes = v &&& 0x1FFF := by
  have hmask : (0x1FFF : Word) = mask 0 4 ||| mask 4 3 ||| mask 7 1 ||| mask 8 1 ||| mask 9 1 ||| mask 10 2 |||
      mask 12 1 := by decide
  simp only [hmask, encBridgeWord, decBridgeRecord, BridgeConfig.codes, code_preampGainOf, flagCode_eq_toNat,
    code_muxOf, place_field, place_bit, BitVec.and_or_distrib_left]

/-- R71: with bit 11 the decoded mux is valid. -/
theorem decBridgeRecord_mux_valid {v : Word} (h : v.getLsbD 11 = true) :
    (decBridgeRecord v).mux = .fullBridge ∨ (decBridgeRecord v).mux = .halfBridge := by
  have hmux : (decBridgeRecord v).mux = if v.getLsbD 10 then .halfBridge else .fullBridge := by
    rw [decBridgeRecord, muxOf_field, if_pos h]
  rw [hmux]
  cases v.getLsbD 10 with
  | false => exact .inl rfl
  | true => exact .inr rfl

/-- Settles O20: the codes of a decoded record are in range, so encoding answers the words of these
lemmas. -/
theorem encodingADecodedValueKeepsTheMeaningfulBits :
    Obligations.EncodingADecodedValueKeepsTheMeaningfulBits := by
  unfold Obligations.EncodingADecodedValueKeepsTheMeaningfulBits
  refine ⟨fun s t v => ?config1, fun s t v => ?config2, fun s t v hvalid => ?bridge⟩
  case config1 =>
    refine ⟨decConfig1Record v, rfl, ?_⟩
    rw [exec_encCfg1_of_wellFormed (config1_codes_wellFormed _), encConfig1Word_decConfig1Record]
  case config2 =>
    obtain ⟨hlow, haddr, heeprom⟩ := pack_canonicalConfig2_toNat v
    refine ⟨decConfig2Record v, pack (canonicalConfig2 v), rfl, ?_, hlow,
      haddr.trans (code_lockOf_field v 10), heeprom.trans (code_lockOf_field v 13)⟩
    rw [exec_encCfg2_of_wellFormed (config2_codes_wellFormed _), encConfig2Word_decConfig2Record]
  case bridge =>
    refine ⟨decBridgeRecord v, exec_decBridge_valid hvalid s, ?_⟩
    rw [exec_encBridge_of_wellFormed (bridge_codes_wellFormed (decBridgeRecord v))
      (decBridgeRecord_mux_valid hvalid), encBridgeWord_decBridgeRecord]

end Sys2Proof.Machine
end

section
/-! The factory-ID decoder and the gain codec (42_factory_gain.md R105 to R110). A GainValue register is
a 15-bit magnitude below a range flag: the word `n` stands for `n / 2 ^ 13`, the word `2 ^ 15 + n` for 8 times
that. -/

namespace Sys2Proof.Machine

/-- Settles O15: the record is `decFactoryId`. -/
theorem decFactidReadsTheFields : Obligations.DecFactidReadsTheFields := by
  unfold Obligations.DecFactidReadsTheFields
  intro s c0 c1 c2
  exact ⟨decFactoryId c0 c1 c2, rfl, decFactoryId_lotNumber c0 c1 c2, decFactoryId_waferNumber c0 c1 c2,
    decFactoryId_waferXCoordinate c0 c1 c2, rfl⟩

/-! DEC_GAIN, by the range flag. -/

/-- The steps per unit of the fine range; the model writes the numeral. -/
theorem two_pow_13 : (2 : ℚ) ^ 13 = 8192 := by norm_num

theorem bit_15_eq_true_iff (v : Word) : bit v 15 = true ↔ 2 ^ 15 ≤ v.toNat := by
  rw [bit, show v.getLsbD 15 = v.msb from (BitVec.msb_eq_getLsbD_last v).symm, BitVec.msb_eq_decide,
    decide_eq_true_iff]

theorem magnitude_toNat (v : Word) : (v &&& 0x7FFF).toNat = v.toNat % 2 ^ 15 := by
  rw [BitVec.toNat_and, show (0x7FFF : Word).toNat = 2 ^ 15 - 1 from rfl, Nat.and_two_pow_sub_one_eq_mod]

/-- R107: without the range flag. -/
theorem gainValue_of_lt {v : Word} (h : v.toNat < 2 ^ 15) : gainValue v = (v.toNat : ℚ) / 2 ^ 13 := by
  have hflag : ¬ bit v 15 = true := by rw [bit_15_eq_true_iff]; omega
  rw [gainValue, if_neg hflag, magnitude_toNat, Nat.mod_eq_of_lt h, two_pow_13]

/-- R107: with the range flag. -/
theorem gainValue_of_ge {v : Word} (h : 2 ^ 15 ≤ v.toNat) :
    gainValue v = ((v.toNat - 2 ^ 15 : Nat) : ℚ) / 2 ^ 13 * 8 := by
  have hmod : v.toNat % 2 ^ 15 = v.toNat - 2 ^ 15 := by have := v.isLt; omega
  rw [gainValue, if_pos ((bit_15_eq_true_iff v).mpr h), magnitude_toNat, hmod, two_pow_13]

/-- R107: DEC_GAIN answers the value of the register. -/
theorem exec_decGain (v : Word) (s : State) :
    exec (.decGain v) s = .next (s.respond ⟨none, some (.gain (gainValue v))⟩) := rfl

/-- Settles O16: both cases of the range flag. -/
theorem decGainScalesByTheRangeFlag : Obligations.DecGainScalesByTheRangeFlag := by
  unfold Obligations.DecGainScalesByTheRangeFlag
  intro s v
  have hvalue : gainValue v = if v.toNat < 2 ^ 15 then (v.toNat : ℚ) / 2 ^ 13
      else ((v.toNat - 2 ^ 15 : Nat) : ℚ) / 2 ^ 13 * 8 := by
    split
    case isTrue h => exact gainValue_of_lt h
    case isFalse h => exact gainValue_of_ge (Nat.not_lt.mp h)
  rw [← hvalue]
  exact exec_decGain v s

/-- DEC_GAIN answers one value only. -/
theorem eq_gainValue_of_exec_decGain {s : State} {v : Word} {d : ℚ}
    (h : exec (.decGain v) s = .next (s.respond ⟨none, some (.gain d)⟩)) : d = gainValue v := by
  have hstate := Host.Outcome.next.inj ((exec_decGain v s).symm.trans h)
  have hresponse := List.append_cancel_left (congrArg State.responses hstate)
  cases hresponse
  rfl

/-! The rounded magnitude (R108, R109). -/

theorem gainMagnitude_eq (m : ℚ) : gainMagnitude m = min ⌊m * 2 ^ 13 + 1 / 2⌋₊ 0x7FFF := by
  rw [gainMagnitude, roundHalfAway, two_pow_13]
  rfl

theorem gainMagnitude_lt (m : ℚ) : gainMagnitude m < 2 ^ 15 :=
  Nat.lt_succ_of_le (Nat.min_le_right _ _)

/-- A 15-bit magnitude rounds to itself. -/
theorem gainMagnitude_natCast {n : Nat} (hn : n < 2 ^ 15) : gainMagnitude ((n : ℚ) / 2 ^ 13) = n := by
  have hfloor : ⌊(n : ℚ) / 2 ^ 13 * 2 ^ 13 + 1 / 2⌋₊ = n := by
    rw [div_mul_cancel₀ _ (by norm_num), Nat.floor_eq_iff (by positivity)]
    constructor <;> linarith
  rw [gainMagnitude_eq, hfloor, Nat.min_eq_left (Nat.le_of_lt_succ hn)]

/-- R110: below the saturation band, half a step. -/
theorem gainMagnitude_error {m : ℚ} (hm : 0 ≤ m) (hm' : m < 32767.5 / 8192) :
    |(gainMagnitude m : ℚ) / 2 ^ 13 - m| ≤ 1 / 2 ^ 14 := by
  have hx : 0 ≤ m * 2 ^ 13 + 1 / 2 := by positivity
  have hfloor : ⌊m * 2 ^ 13 + 1 / 2⌋₊ < 2 ^ 15 := by
    rw [Nat.floor_lt hx]
    norm_num at hm' ⊢
    linarith
  have hlow := Nat.floor_le hx
  have hhigh := Nat.lt_floor_add_one (m * 2 ^ 13 + 1 / 2)
  rw [gainMagnitude_eq, Nat.min_eq_left (Nat.le_of_lt_succ hfloor), abs_le]
  constructor <;> linarith

/-- R110: in the saturation band, less than a step. -/
theorem gainMagnitude_error_of_saturated {m : ℚ} (hm : 32767.5 / 8192 ≤ m) (hm' : m < 4) :
    |(gainMagnitude m : ℚ) / 2 ^ 13 - m| < 1 / 2 ^ 13 := by
  have hfloor : 0x7FFF ≤ ⌊m * 2 ^ 13 + 1 / 2⌋₊ := by
    apply Nat.le_floor
    norm_num at hm ⊢
    linarith
  rw [gainMagnitude_eq, Nat.min_eq_right hfloor, abs_lt]
  norm_num at hm ⊢
  constructor <;> linarith

/-! ENC_GAIN: the word of an encodable gain, and what it decodes to. -/

theorem encGainWord_of_lt {q : ℚ} (h : q < 4) : encGainWord q = BitVec.ofNat 16 (gainMagnitude q) :=
  if_neg (not_le.mpr h)

theorem encGainWord_of_ge {q : ℚ} (h : 4 ≤ q) :
    encGainWord q = BitVec.ofNat 16 (2 ^ 15 + gainMagnitude (q / 8)) := by
  rw [encGainWord, if_pos h, place_eq_ofNat, ← BitVec.ofNat_or, Nat.one_shiftLeft]
  exact congrArg _ (Nat.two_pow_add_eq_or_of_lt (gainMagnitude_lt _) 1).symm

theorem gainValue_encGainWord_of_lt {q : ℚ} (h : q < 4) :
    gainValue (encGainWord q) = (gainMagnitude q : ℚ) / 2 ^ 13 := by
  have hlt := gainMagnitude_lt q
  have hword : (encGainWord q).toNat = gainMagnitude q := by
    rw [encGainWord_of_lt h, BitVec.toNat_ofNat, Nat.mod_eq_of_lt (by omega)]
  rw [gainValue_of_lt (by omega), hword]

theorem gainValue_encGainWord_of_ge {q : ℚ} (h : 4 ≤ q) :
    gainValue (encGainWord q) = (gainMagnitude (q / 8) : ℚ) / 2 ^ 13 * 8 := by
  have hlt := gainMagnitude_lt (q / 8)
  have hword : (encGainWord q).toNat = 2 ^ 15 + gainMagnitude (q / 8) := by
    rw [encGainWord_of_ge h, BitVec.toNat_ofNat, Nat.mod_eq_of_lt (by omega)]
  rw [gainValue_of_ge (by omega), hword, Nat.add_sub_cancel_left]

section
variable {g : BitVec 32} {q : ℚ}

/-- R108: outside the encodable gains, the error with the sentinel. -/
theorem exec_encGain_of_unencodable (h : encodableGain (binary32 g) = none) (s : State) :
    exec (.encGain g) s = .next (s.respond ⟨some (.gainUnencodable g), some (.word 0x0000)⟩) := by
  simp only [exec, execEncGain, h, raiseWith]

/-- R108: on [0, 32), the rounded word. -/
theorem exec_encGain_of_finite (hg : binary32 g = .finite q) (hq : 0 ≤ q) (hq' : q < 32) (s : State) :
    exec (.encGain g) s = .next (s.respond ⟨none, some (.word (encGainWord q))⟩) := by
  have hin : ¬ (q < 0 ∨ 32 ≤ q) := not_or.mpr ⟨not_lt.mpr hq, not_le.mpr hq'⟩
  simp only [exec, execEncGain, hg, encodableGain, if_neg hin, finish]

end

/-- Settles O17: clause by clause, as `encodableGain` and the range decide. -/
theorem encGainRoundsAndSaturates : Obligations.EncGainRoundsAndSaturates := by
  unfold Obligations.EncGainRoundsAndSaturates
  refine ⟨fun s g hg => ?notFinite, fun s g q hg hq => ?outside, fun s g q hg hq hq' => ?fine,
    fun s g q hg hq hq' => ?coarse⟩
  case notFinite =>
    refine exec_encGain_of_unencodable ?_ s
    obtain hg | ⟨n, hg⟩ := hg <;> rw [hg] <;> rfl
  case outside =>
    refine exec_encGain_of_unencodable ?_ s
    rw [hg, encodableGain, if_pos hq]
  case fine =>
    rw [← gainMagnitude_eq, ← encGainWord_of_lt hq']
    exact exec_encGain_of_finite hg hq (by linarith) s
  case coarse =>
    rw [← gainMagnitude_eq, ← encGainWord_of_ge hq]
    exact exec_encGain_of_finite hg (by linarith) hq' s

/-- The coarse range scales the error of the magnitude by 8. -/
theorem abs_mul_eight_sub (x q : ℚ) : |x * 8 - q| = |x - q / 8| * 8 := by
  rw [show x * 8 - q = (x - q / 8) * 8 by ring, abs_mul, abs_of_pos (by norm_num : (0 : ℚ) < 8)]

/-- Settles O22: below 4 the error is the magnitude's, from 4 on 8 times that of `q / 8`. -/
theorem gainRoundTripErrorBounds : Obligations.GainRoundTripErrorBounds := by
  unfold Obligations.GainRoundTripErrorBounds
  intro s g q hg hq hq'
  refine ⟨encGainWord q, exec_encGain_of_finite hg hq hq' s, gainValue (encGainWord q),
    exec_decGain _ s, ?_⟩
  obtain hfine | hcoarse := lt_or_ge q 4
  · rw [gainValue_encGainWord_of_lt hfine]
    refine ⟨fun h => gainMagnitude_error hq h, fun h _ => gainMagnitude_error_of_saturated h hfine,
      fun h => absurd hfine (not_lt.mpr h), fun h => ?coarseBand⟩
    case coarseBand =>
      norm_num at h
      linarith
  · rw [gainValue_encGainWord_of_ge hcoarse, abs_mul_eight_sub]
    refine ⟨fun h => ?fine, fun _ h => absurd h (not_lt.mpr hcoarse), fun _ h => ?coarse, fun h => ?saturated⟩
    case fine =>
      norm_num at h
      linarith
    case coarse =>
      have herror := gainMagnitude_error (m := q / 8) (by positivity) (by linarith)
      linarith
    case saturated =>
      have herror := gainMagnitude_error_of_saturated (m := q / 8) (by linarith) (by linarith)
      linarith

/-! Encoding a decoded register value (R110, third sentence). -/

theorem gainValue_nonneg_and_lt (v : Word) : 0 ≤ gainValue v ∧ gainValue v < 32 := by
  obtain h | h := Nat.lt_or_ge v.toNat (2 ^ 15)
  · have hcast : (v.toNat : ℚ) < 2 ^ 15 := by exact_mod_cast h
    rw [gainValue_of_lt h]
    exact ⟨by positivity, by linarith⟩
  · obtain ⟨n, hn⟩ := Nat.exists_eq_add_of_le h
    have hlt : n < 2 ^ 15 := by have := v.isLt; omega
    have hcast : (n : ℚ) < 2 ^ 15 := by exact_mod_cast hlt
    rw [gainValue_of_ge h, hn, Nat.add_sub_cancel_left]
    exact ⟨by positivity, by linarith⟩

/-- The fine encoding of a 15-bit magnitude is the magnitude. -/
theorem encGainWord_natCast {n : Nat} (hn : n < 2 ^ 15) :
    encGainWord ((n : ℚ) / 2 ^ 13) = BitVec.ofNat 16 n := by
  have hcast : (n : ℚ) < 2 ^ 15 := by exact_mod_cast hn
  rw [encGainWord_of_lt (by linarith), gainMagnitude_natCast hn]

/-- The coarse range starts at the magnitude 4096; below it the fine encoding is 8 times the magnitude. -/
theorem encGainWord_gainValue (v : Word) : encGainWord (gainValue v) =
    if v.toNat < 2 ^ 15 ∨ 2 ^ 15 + 4096 ≤ v.toNat then v else BitVec.ofNat 16 (8 * (v.toNat % 2 ^ 15)) := by
  have hofNat : BitVec.ofNat 16 v.toNat = v := by rw [BitVec.ofNat_toNat, BitVec.setWidth_eq]
  obtain hfine | hflag := Nat.lt_or_ge v.toNat (2 ^ 15)
  · rw [if_pos (.inl hfine), gainValue_of_lt hfine, encGainWord_natCast hfine, hofNat]
  obtain ⟨n, hn⟩ := Nat.exists_eq_add_of_le hflag
  have hlt : n < 2 ^ 15 := by have := v.isLt; omega
  rw [gainValue_of_ge hflag, hn, Nat.add_sub_cancel_left, Nat.add_mod_left, Nat.mod_eq_of_lt hlt]
  obtain hcoarse | hsmall := Nat.lt_or_ge 4095 n
  · have hcast : (4096 : ℚ) ≤ n := by exact_mod_cast hcoarse
    rw [if_pos (.inr (Nat.add_le_add_left hcoarse _)), encGainWord_of_ge (by linarith),
      mul_div_cancel_right₀ _ (by norm_num), gainMagnitude_natCast hlt, ← hn, hofNat]
  · rw [if_neg (by omega), show (n : ℚ) / 2 ^ 13 * 8 = ((8 * n : Nat) : ℚ) / 2 ^ 13 by push_cast; ring,
      encGainWord_natCast (by omega)]

/-- Settles O23: the decoded gain lies in [0, 32), so ENC_GAIN answers its word. -/
theorem gainValuesReencode : Obligations.GainValuesReencode := by
  unfold Obligations.GainValuesReencode
  intro s v g d hdec hg
  obtain rfl := eq_gainValue_of_exec_decGain hdec
  obtain ⟨hnonneg, hlt⟩ := gainValue_nonneg_and_lt v
  rw [exec_encGain_of_finite hg hnonneg hlt, encGainWord_gainValue]

/-! The bound of the fine range on the coarse one (C5). -/

/-- Refutes O25: 8193/2048 is a tie of the coarse range. It is encoded as 0x9001, which decodes to 8194/2048,
so the error is 2^-11. -/
theorem not_gainErrorWithinTheFineResolutionEverywhere :
    ¬ Obligations.GainErrorWithinTheFineResolutionEverywhere := by
  unfold Obligations.GainErrorWithinTheFineResolutionEverywhere
  intro hbound
  have hg : binary32 0x40800400 = .finite (8193 / 2048) := by decide +kernel
  have hword : encGainWord (8193 / 2048) = 0x9001 := by decide +kernel
  have henc := exec_encGain_of_finite hg (by norm_num) (by norm_num) State.reset
  rw [hword] at henc
  have hvalue : gainValue 0x9001 = 8194 / 2048 := by decide +kernel
  have herror := hbound State.reset 0x40800400 (8193 / 2048) (gainValue 0x9001) 0x9001 hg (by norm_num)
    (by norm_num) henc (exec_decGain _ _)
  rw [hvalue] at herror
  norm_num at herror

end Sys2Proof.Machine
end

section
/-! ENC_BRIDGE (41_config_codec.md R100 with D38, R115): the whole answer in each of its clauses. -/

namespace Sys2Proof.Machine

section
variable {r : BridgeConfigCodes}

/-- R100: a preamp offset out of range is reported. -/
theorem exec_encBridge_of_offset (h : 15 < r.preampOffset) (s : State) :
    exec (.encBridge r) s = .next (s.respond ⟨some (.fieldRange r.preampOffset), none⟩) := if_pos h

/-- D38: of a record with another code out of range, such a code is reported. -/
theorem exec_encBridge_of_not_wellFormed (hoffset : r.preampOffset ≤ 15) (h : r.wellFormed = false) :
    ∃ p ∈ bridgeFields r, p.2 < p.1 ∧
      ∀ s : State, exec (.encBridge r) s = .next (s.respond ⟨some (.fieldRange p.1), none⟩) := by
  cases hrange : outOfRange (Config.reportedField (.encBridge r)) (bridgeFields r) with
  | none =>
    have hwf := (BridgeConfigCodes_wellFormed_iff r).mpr ⟨hoffset, outOfRange_eq_none.mp hrange⟩
    cases h.symm.trans hwf
  | some n =>
    obtain ⟨p, hp, hlt, rfl⟩ := outOfRange_eq_some hrange
    refine ⟨p, hp, hlt, fun s => ?_⟩
    simp only [exec, execEncBridge, if_neg (Nat.not_lt.mpr hoffset), hrange, raise]

/-- R100, R115: once the codes are in range, an invalid mux is flagged with the result 0x0000. -/
theorem exec_encBridge_of_invalid {c : BitVec 1} (h : r.wellFormed = true) (hmux : r.mux = .invalid c)
    (s : State) : exec (.encBridge r) s =
      .next (s.respond ⟨some (.invalidMux (BitVec.ofNat 2 c.toNat)), some (.word 0x0000)⟩) := by
  obtain ⟨hoffset, hcodes⟩ := (BridgeConfigCodes_wellFormed_iff r).mp h
  have hrange : outOfRange (Config.reportedField (.encBridge r)) (bridgeFields r) = none :=
    outOfRange_eq_none.mpr hcodes
  simp only [exec, execEncBridge, if_neg (Nat.not_lt.mpr hoffset), hrange, hmux, raiseWith,
    BitVec.ofNat_toNat]

end

theorem encBridgeWord_eq_ofNat (r : BridgeConfigCodes) : encBridgeWord r = BitVec.ofNat 16
    (r.preampOffset ||| r.preampGain.code <<< 4 ||| r.polarity <<< 7 ||| r.longIntegration <<< 8 |||
      r.bSink <<< 9 ||| r.mux.code <<< 10 ||| r.disableNulling <<< 12) := by
  simp only [encBridgeWord, place_eq_ofNat, Nat.shiftLeft_zero, BitVec.ofNat_or]

/-- Settles O13: one lemma per clause; the packed word is the union R100 writes out. -/
theorem encBridgePacksTheFields : Obligations.EncBridgePacksTheFields := by
  unfold Obligations.EncBridgePacksTheFields
  refine ⟨fun s r hoffset => exec_encBridge_of_offset hoffset s, fun s r hoffset hwf => ?outOfRange,
    fun s r c hwf hmux => exec_encBridge_of_invalid hwf hmux s, fun s r m hwf hm => ?packed⟩
  case outOfRange =>
    obtain ⟨p, hp, hlt, hexec⟩ := exec_encBridge_of_not_wellFormed hoffset hwf
    exact ⟨p, hp, hlt, hexec s⟩
  case packed =>
    have hcode : m = r.mux.code := by obtain ⟨hmux, rfl⟩ | ⟨hmux, rfl⟩ := hm <;> rw [hmux] <;> rfl
    rw [hcode, ← encBridgeWord_eq_ofNat]
    exact exec_encBridge_of_wellFormed hwf (hm.imp And.left And.left) s

end Sys2Proof.Machine
end

section
/-! Errors (60_exceptions.md R112, R114, R115), said once: `exec_ends` gives for every operation in every state
its end, as a case of `Ending`. An error is either a refusal, which leaves nothing but its response, or a failure
on the bus or in the value of an operand. -/

namespace Sys2Proof.Machine

/-- `OperandOutOfRange c i n`: `n` is an operand of `i`, or a field code of its record, and out of its range under
the configuration `c` (R89, R90, R93, R96, R98, R100 with D38). -/
inductive OperandOutOfRange (c : Config) : Instr → Nat → Prop where
  | readIndex {r : Nat} (h : c.nreg ≤ r) : OperandOutOfRange c (.rdreg r) r
  | writeIndex {r : Nat} (v : Nat) (h : c.nreg ≤ r) : OperandOutOfRange c (.wrreg r v) r
  | writeValue (r : Nat) {v : Nat} (h : 0xFFFF < v) : OperandOutOfRange c (.wrreg r v) v
  | busAddress {a : Nat} (h : 0x7F < a) : OperandOutOfRange c (.setaddr a) a
  | config1Code {rec : ZmdiConfig1Codes} {p : Nat × Nat} (hp : p ∈ config1Fields rec) (h : p.2 < p.1) :
      OperandOutOfRange c (.encCfg1 rec) p.1
  | config2Address {rec : ZmdiConfig2Codes} (h : 0x7F < rec.address) :
      OperandOutOfRange c (.encCfg2 rec) rec.address
  | config2Code {rec : ZmdiConfig2Codes} {p : Nat × Nat} (hp : p ∈ config2Fields rec) (h : p.2 < p.1) :
      OperandOutOfRange c (.encCfg2 rec) p.1
  | preampOffset {rec : BridgeConfigCodes} (h : 15 < rec.preampOffset) :
      OperandOutOfRange c (.encBridge rec) rec.preampOffset
  | bridgeCode {rec : BridgeConfigCodes} {p : Nat × Nat} (hp : p ∈ bridgeFields rec) (h : p.2 < p.1) :
      OperandOutOfRange c (.encBridge rec) p.1

/-- The errors by which `i` can be refused from `s`: both ModeErrors and FieldRange (R112). -/
inductive RefusedWith (s : State) : Instr → Cause → Prop where
  | wrongState {i : Instr} {p : ProtoState} (hi : guardedBy i = some p) (hguard : s.cfg.modeGuard = .enforce) :
      RefusedWith s i (.wrongState s.ps)
  | addressAlreadyChanged (a : Nat) (hguard : s.cfg.modeGuard = .enforce) :
      RefusedWith s (.setaddr a) (.addressAlreadyChanged s.busAddr)
  | fieldRange {i : Instr} {n : Nat} (h : OperandOutOfRange s.cfg i n) : RefusedWith s i (.fieldRange n)

/-- The errors by which `i` can fail from `s` after its checks (R112). -/
inductive FailsWith (s : State) : Instr → Cause → Prop where
  | sendFailed {i : Instr} (hi : 0 < bytesWritten i) : FailsWith s i .sendFailed
  | readFailed {i : Instr} (hi : 0 < bytesRead i) : FailsWith s i .readFailed
  | badStatus (r : Nat) {st d1 d0 : Byte} (hst : st ≠ s.cfg.statusOk) (h1 : s.replyAt 1 = .done [st, d1, d0]) :
      FailsWith s (.rdreg r) (.badStatus st)
  | gainUnencodable (g : BitVec 32) : FailsWith s (.encGain g) (.gainUnencodable g)
  | decodedMux {v : Word} (hv : v.getLsbD 11 = false) : FailsWith s (.decBridge v) (.invalidMux (field v 10 2))
  | encodedMux {rec : BridgeConfigCodes} {c : BitVec 1} (hmux : rec.mux = .invalid c) :
      FailsWith s (.encBridge rec) (.invalidMux (BitVec.ofNat 2 c.toNat))

/-- `Ending s i r t`: from `s` the operation `i` may answer `r` and leave the state `t`. -/
inductive Ending (s : State) (i : Instr) : Response → State → Prop where
  | success {v : Option Value} {t : State} : Ending s i ⟨none, v⟩ t
  | refusal {c : Cause} (h : RefusedWith s i c) : Ending s i ⟨some c, none⟩ (s.respond ⟨some c, none⟩)
  | failure {c : Cause} {v : Option Value} {t : State} (h : FailsWith s i c) : Ending s i ⟨some c, v⟩ t

/-- The result `res` of performing `i` from `s` is a next state, as one of the cases of `Ending`. -/
def Ends (s : State) (i : Instr) (res : Result) : Prop :=
  ∃ (r : Response) (t : State), res = .next t ∧ t.responses = s.responses ++ [r] ∧ Ending s i r t

/-! What a clause of an operation's rule says about its end. -/

section
variable {s t : State} {i : Instr} {c : Cause} {v : Option Value} {res : Result}

theorem ends_of_success (h : res = .next t) (hr : t.responses = s.responses ++ [⟨none, v⟩]) : Ends s i res :=
  ⟨_, t, h, hr, .success⟩

theorem ends_of_refusal (h : res = .next (s.respond ⟨some c, none⟩)) (hc : RefusedWith s i c) : Ends s i res :=
  ⟨_, _, h, rfl, .refusal hc⟩

theorem ends_of_failure (h : res = .next t) (hr : t.responses = s.responses ++ [⟨some c, v⟩])
    (hc : FailsWith s i c) : Ends s i res :=
  ⟨_, t, h, hr, .failure hc⟩

end

/-! Each operation ends in one of the cases. -/

section
variable (s : State)

theorem exec_startcm_ends : Ends s .startcm (exec .startcm s) := by
  obtain ⟨hrefused, hfailed, hsent⟩ := startcmSendsTheByteAndEntersCommandMode
  obtain ⟨hguard, hps⟩ | hpass := guard_cases s .poweredIdle
  · exact ends_of_refusal (hrefused s hguard hps) (.wrongState rfl hguard)
  · cases h0 : s.replyAt 0 with
    | failed => exact ends_of_failure (hfailed s hpass h0) rfl (.sendFailed (by decide))
    | done reply => exact ends_of_success (hsent s reply hpass h0) rfl

theorem exec_startnom_ends : Ends s .startnom (exec .startnom s) := by
  obtain ⟨hrefused, hfailed, hsent⟩ := startnomSendsTheByteAndEntersNormalOperation
  obtain ⟨hguard, hps⟩ | hpass := guard_cases s .commandMode
  · exact ends_of_refusal (hrefused s hguard hps) (.wrongState rfl hguard)
  · cases h0 : s.replyAt 0 with
    | failed => exact ends_of_failure (hfailed s hpass h0) rfl (.sendFailed (by decide))
    | done reply => exact ends_of_success (hsent s reply hpass h0) rfl

theorem exec_rdreg_ends (r : Nat) : Ends s (.rdreg r) (exec (.rdreg r) s) := by
  obtain ⟨hindex, hrefused, hnotSent, hnotRead, hbadStatus, hread⟩ := rdregReadsAndValidatesTheReply
  obtain hr | hr := Nat.lt_or_ge r s.cfg.nreg
  · obtain ⟨hguard, hps⟩ | hpass := guard_cases s .commandMode
    · exact ends_of_refusal (hrefused s r hr hguard hps) (.wrongState rfl hguard)
    cases h0 : s.replyAt 0 with
    | failed => exact ends_of_failure (hnotSent s r hr hpass h0) rfl (.sendFailed (Nat.succ_pos _))
    | done reply =>
      obtain hfail | ⟨bytes, h1, hlen⟩ := reply_cases 3 (s.replyAt 1)
      · exact ends_of_failure (hnotRead s r reply hr hpass h0 hfail) rfl (.readFailed (Nat.succ_pos _))
      obtain ⟨st, d1, d0, rfl⟩ := List.length_eq_three.mp hlen
      by_cases hst : st = s.cfg.statusOk
      · exact ends_of_success (hread s r reply d1 d0 hr hpass h0 (hst ▸ h1)) rfl
      · exact ends_of_failure (hbadStatus s r reply st d1 d0 hr hpass h0 h1 hst) rfl (.badStatus r hst h1)
  · exact ends_of_refusal (hindex s r hr) (.fieldRange (.readIndex hr))

theorem exec_wrreg_ends (r v : Nat) : Ends s (.wrreg r v) (exec (.wrreg r v) s) := by
  obtain ⟨hindex, hvalue, hrefused, hfailed, hsent⟩ := wrregSendsTheFrameAndOwesTheSettle
  obtain hr | hr := Nat.lt_or_ge r s.cfg.nreg
  · obtain hv | hv := Nat.lt_or_ge 0xFFFF v
    · exact ends_of_refusal (hvalue s r v hr hv) (.fieldRange (.writeValue r hv))
    obtain ⟨hguard, hps⟩ | hpass := guard_cases s .commandMode
    · exact ends_of_refusal (hrefused s r v hr hv hguard hps) (.wrongState rfl hguard)
    cases h0 : s.replyAt 0 with
    | failed => exact ends_of_failure (hfailed s r v hr hv hpass h0) rfl (.sendFailed (Nat.succ_pos _))
    | done reply => exact ends_of_success (hsent s r v reply hr hv hpass h0) rfl
  · exact ends_of_refusal (hindex s r v hr) (.fieldRange (.writeIndex v hr))

theorem exec_rdsample_ends : Ends s .rdsample (exec .rdsample s) := by
  obtain ⟨hrefused, hnotRead, hread⟩ := rdsampleReadsFourteenBits
  obtain ⟨hguard, hps⟩ | hpass := guard_cases s .normalOperation
  · exact ends_of_refusal (hrefused s hguard hps) (.wrongState rfl hguard)
  obtain hfail | ⟨bytes, h0, hlen⟩ := reply_cases 2 (s.replyAt 0)
  · exact ends_of_failure (hnotRead s hpass hfail) rfl (.readFailed (by decide))
  obtain ⟨b0, b1, rfl⟩ := List.length_eq_two.mp hlen
  exact ends_of_success (hread s b0 b1 hpass h0) rfl

theorem exec_setaddr_ends (a : Nat) : Ends s (.setaddr a) (exec (.setaddr a) s) := by
  simp only [exec, execSetaddr]
  split
  next ha => exact ends_of_refusal rfl (.fieldRange (.busAddress ha))
  split
  next hagain =>
    obtain ⟨hguard, _⟩ := hagain
    exact ends_of_refusal rfl (.addressAlreadyChanged a hguard)
  next => exact ends_of_success rfl rfl

theorem exec_encCfg1_ends (rec : ZmdiConfig1Codes) : Ends s (.encCfg1 rec) (exec (.encCfg1 rec) s) := by
  cases hwf : rec.wellFormed with
  | true => exact ends_of_success (exec_encCfg1_of_wellFormed hwf s) rfl
  | false =>
    obtain ⟨p, hp, hlt, hexec⟩ := exec_encCfg1_of_not_wellFormed hwf
    exact ends_of_refusal (hexec s) (.fieldRange (.config1Code hp hlt))

theorem exec_encCfg2_ends (rec : ZmdiConfig2Codes) : Ends s (.encCfg2 rec) (exec (.encCfg2 rec) s) := by
  simp only [exec, execEncCfg2]
  split
  next haddress => exact ends_of_refusal rfl (.fieldRange (.config2Address haddress))
  split
  next hrange =>
    obtain ⟨p, hp, hlt, rfl⟩ := outOfRange_eq_some hrange
    exact ends_of_refusal rfl (.fieldRange (.config2Code hp hlt))
  next => exact ends_of_success rfl rfl

theorem exec_encBridge_ends (rec : BridgeConfigCodes) :
    Ends s (.encBridge rec) (exec (.encBridge rec) s) := by
  obtain hoffset | hoffset := Nat.lt_or_ge 15 rec.preampOffset
  · exact ends_of_refusal (exec_encBridge_of_offset hoffset s) (.fieldRange (.preampOffset hoffset))
  cases hwf : rec.wellFormed with
  | false =>
    obtain ⟨p, hp, hlt, hexec⟩ := exec_encBridge_of_not_wellFormed hoffset hwf
    exact ends_of_refusal (hexec s) (.fieldRange (.bridgeCode hp hlt))
  | true =>
    cases hmux : rec.mux with
    | fullBridge => exact ends_of_success (exec_encBridge_of_wellFormed hwf (.inl hmux) s) rfl
    | halfBridge => exact ends_of_success (exec_encBridge_of_wellFormed hwf (.inr hmux) s) rfl
    | invalid c => exact ends_of_failure (exec_encBridge_of_invalid hwf hmux s) rfl (.encodedMux hmux)

theorem exec_decBridge_ends (v : Word) : Ends s (.decBridge v) (exec (.decBridge v) s) := by
  cases hv : v.getLsbD 11 with
  | true => exact ends_of_success (exec_decBridge_valid hv s) rfl
  | false => exact ends_of_failure (exec_decBridge_flagged hv s) rfl (.decodedMux hv)

theorem exec_encGain_ends (g : BitVec 32) : Ends s (.encGain g) (exec (.encGain g) s) := by
  cases hg : encodableGain (binary32 g) with
  | none => exact ends_of_failure (exec_encGain_of_unencodable hg s) rfl (.gainUnencodable g)
  | some q =>
    simp only [exec, execEncGain, hg]
    exact ends_of_success rfl rfl

/-- Every operation in every state ends in one of the cases of `Ending`. The last three lines are the operations
that raise nothing (R112). -/
theorem exec_ends (i : Instr) : Ends s i (exec i s) := by
  cases i with
  | startcm => exact exec_startcm_ends s
  | startnom => exact exec_startnom_ends s
  | rdreg r => exact exec_rdreg_ends s r
  | wrreg r v => exact exec_wrreg_ends s r v
  | rdsample => exact exec_rdsample_ends s
  | setaddr a => exact exec_setaddr_ends s a
  | encCfg1 rec => exact exec_encCfg1_ends s rec
  | encCfg2 rec => exact exec_encCfg2_ends s rec
  | encBridge rec => exact exec_encBridge_ends s rec
  | decBridge v => exact exec_decBridge_ends s v
  | encGain g => exact exec_encGain_ends s g
  | pwrcyc => exact ends_of_success (exec_pwrcyc s) rfl
  | sleep t => exact ends_of_success (exec_sleep s t) rfl
  | decCfg1 | decCfg2 | decFactid | decGain => exact ends_of_success rfl rfl

end

/-! What follows from the cases. -/

section
variable {s t : State} {i : Instr} {r : Response}

/-- The end of an operation whose next state and response are given. -/
theorem ending_of_exec (h : exec i s = .next t) (hr : t.responses = s.responses ++ [r]) : Ending s i r t := by
  obtain ⟨r', t', hexec, hr', hending⟩ := exec_ends s i
  cases h.symm.trans hexec
  rw [hr, List.append_cancel_left_eq, List.singleton_inj] at hr'
  exact hr' ▸ hending

/-- The error of an operation that ends with one is a refusal's or a failure's. -/
theorem Ending.refused_or_failed {c : Cause} (h : Ending s i r t) (hc : r.error = some c) :
    RefusedWith s i c ∨ FailsWith s i c := by
  cases h with
  | success => cases hc
  | refusal h =>
    cases hc
    exact .inl h
  | failure h =>
    cases hc
    exact .inr h

theorem FailsWith.ne_modeError {c : Cause} (h : FailsWith s i c) : c.status ≠ .modeError := by
  cases h <;> nofun

theorem FailsWith.ne_fieldRange {c : Cause} (h : FailsWith s i c) (n : Nat) : c ≠ .fieldRange n := by
  cases h <;> nofun

/-- R60, R63: the operations that send a frame. -/
theorem sends_of_bytesWritten (h : 0 < bytesWritten i) :
    i = .startcm ∨ i = .startnom ∨ (∃ n, i = .rdreg n) ∨ ∃ n v, i = .wrreg n v := by
  cases i with
  | startcm => exact .inl rfl
  | startnom => exact .inr (.inl rfl)
  | rdreg n => exact .inr (.inr (.inl ⟨n, rfl⟩))
  | wrreg n v => exact .inr (.inr (.inr ⟨n, v, rfl⟩))
  | pwrcyc | rdsample | sleep | setaddr | encCfg1 | decCfg1 | encCfg2 | decCfg2 | encBridge | decBridge
  | decFactid | encGain | decGain => cases h

/-- R61 to R63: the operations that read a reply. -/
theorem reads_of_bytesRead (h : 0 < bytesRead i) : i = .rdsample ∨ ∃ n, i = .rdreg n := by
  cases i with
  | rdsample => exact .inl rfl
  | rdreg n => exact .inr ⟨n, rfl⟩
  | pwrcyc | startcm | startnom | wrreg | sleep | setaddr | encCfg1 | decCfg1 | encCfg2 | decCfg2 | encBridge
  | decBridge | decFactid | encGain | decGain => cases h

/-- R85: the operations with a guard. -/
theorem gated_of_guardedBy {p : ProtoState} (h : guardedBy i = some p) :
    i = .startcm ∨ i = .startnom ∨ (∃ n, i = .rdreg n) ∨ (∃ n v, i = .wrreg n v) ∨ i = .rdsample := by
  cases i with
  | startcm => exact .inl rfl
  | startnom => exact .inr (.inl rfl)
  | rdreg n => exact .inr (.inr (.inl ⟨n, rfl⟩))
  | wrreg n v => exact .inr (.inr (.inr (.inl ⟨n, v, rfl⟩)))
  | rdsample => exact .inr (.inr (.inr (.inr rfl)))
  | pwrcyc | sleep | setaddr | encCfg1 | decCfg1 | encCfg2 | decCfg2 | encBridge | decBridge | decFactid
  | encGain | decGain => cases h

end

/-- R71: a mux code without its upper bit is at most 1. -/
theorem mux_field_le_one {v : Word} (h : v.getLsbD 11 = false) : (field v 10 2).toNat ≤ 1 := by
  have hhigh : (field v 10 2).getLsbD 1 = false := (field_getLsbD v 10 2 1).trans h
  generalize field v 10 2 = m at hhigh
  revert m
  decide

/-- R71: the code of an invalid mux fills the lower bit of the mux field. -/
theorem toNat_ofNat_invalid_code (c : BitVec 1) : (BitVec.ofNat 2 c.toNat).toNat = c.toNat := by
  revert c; decide

/-- Settles O36: a failure has neither error, and a refusal leaves `s.respond r`. -/
theorem refusedRequestsLeaveNoTrace : Obligations.RefusedRequestsLeaveNoTrace := by
  unfold Obligations.RefusedRequestsLeaveNoTrace
  intro i s t r hexec hr herror
  cases ending_of_exec hexec hr with
  | refusal => rfl
  | success => obtain hmode | ⟨n, hrange⟩ := herror <;> contradiction
  | failure hc =>
    obtain hmode | ⟨n, hrange⟩ := herror
    · exact absurd hmode hc.ne_modeError
    · exact absurd (Option.some.inj hrange) (hc.ne_fieldRange n)

/-- Settles O37: each constructor of `RefusedWith` and `FailsWith` is an entry of the table of R112. -/
theorem subCausesAreRaisedOnlyAsTabled : Obligations.SubCausesAreRaisedOnlyAsTabled := by
  unfold Obligations.SubCausesAreRaisedOnlyAsTabled
  refine ⟨fun c => by cases c <;> rfl, fun i s t r c hexec hr hc => ?_⟩
  obtain hrefused | hfailed := (ending_of_exec hexec hr).refused_or_failed hc
  · cases hrefused with
    | wrongState hi hguard => exact ⟨rfl, hguard, gated_of_guardedBy hi⟩
    | addressAlreadyChanged a hguard => exact ⟨rfl, hguard, a, rfl⟩
    | fieldRange hn =>
      cases hn with
      | readIndex h => exact .inl ⟨rfl, h⟩
      | writeIndex v h => exact .inr (.inl ⟨v, rfl, h⟩)
      | writeValue r' h => exact .inr (.inr (.inl ⟨r', rfl, h⟩))
      | busAddress h => exact .inr (.inr (.inr (.inl ⟨rfl, h⟩)))
      | config1Code hp h => exact .inr (.inr (.inr (.inr (.inl ⟨_, rfl, _, hp, h, rfl⟩))))
      | config2Address h => exact .inr (.inr (.inr (.inr (.inr (.inl ⟨_, rfl, .inl ⟨rfl, h⟩⟩)))))
      | config2Code hp h => exact .inr (.inr (.inr (.inr (.inr (.inl ⟨_, rfl, .inr ⟨_, hp, h, rfl⟩⟩)))))
      | preampOffset h => exact .inr (.inr (.inr (.inr (.inr (.inr ⟨_, rfl, .inl ⟨rfl, h⟩⟩)))))
      | bridgeCode hp h => exact .inr (.inr (.inr (.inr (.inr (.inr ⟨_, rfl, .inr ⟨_, hp, h, rfl⟩⟩)))))
  · cases hfailed with
    | sendFailed hi => exact sends_of_bytesWritten hi
    | readFailed hi => exact reads_of_bytesRead hi
    | badStatus n hst h1 => exact ⟨hst, n, _, _, rfl, h1⟩
    | gainUnencodable => rfl
    | decodedMux hv => exact ⟨mux_field_le_one hv, .inl ⟨_, rfl, (field_toNat _ 10 2).symm⟩⟩
    | @encodedMux rec c hmux =>
      have hcode : (BitVec.ofNat 2 c.toNat).toNat = c.toNat := toNat_ofNat_invalid_code c
      refine ⟨hcode.trans_le (Nat.le_of_lt_succ c.isLt), .inr ⟨rec, rfl, ?_⟩⟩
      rw [hmux, hcode, BitVec.ofNat_toNat, BitVec.setWidth_eq]

end Sys2Proof.Machine
end

section
/-! Waiting times (70_reset_and_hazards.md R130, R131, R135), said once: `exec_waits` gives for every
operation in every state its response and, where that is OK, new events whose waits add up to the holds and
delays of R135. -/

namespace Sys2Proof.Machine

/-- The waits of an operation are among its holds and delays, however far it gets (R135). -/
theorem Emits.waited_le {s : State} {i : Instr} {new : List Event} (h : Emits s i new) :
    waited new ≤ minDuration s.cfg i := by
  cases h with
  | nothing | frame => exact Nat.zero_le _
  | powerCycle | sleep | settled | exchange | sample => exact le_rfl

/-- The result `res` of performing `i` from `s` is a next state that, if the response is OK, has waited the
minimum of R135. -/
def WaitsIfOk (s : State) (i : Instr) (res : Result) : Prop :=
  ∃ (t : State) (r : Response), res = .next t ∧ t.responses = s.responses ++ [r] ∧
    (r.error = none → ∃ new : List Event, t.history = s.history ++ new ∧ waited new = minDuration s.cfg i)

section
variable {s t : State} {i : Instr} {new : List Event} {r : Response} {c : Cause} {v : Option Value}
  {res : Result}

theorem waitsIfOk_of_error (h : res = .next t) (hr : t.responses = s.responses ++ [⟨some c, v⟩]) :
    WaitsIfOk s i res := ⟨t, _, h, hr, nofun⟩

theorem waitsIfOk_of_waited (h : res = .next t) (hr : t.responses = s.responses ++ [r])
    (hnew : t.history = s.history ++ new) (hwaited : waited new = minDuration s.cfg i) :
    WaitsIfOk s i res := ⟨t, r, h, hr, fun _ => ⟨new, hnew, hwaited⟩⟩

end

/-! Each operation has waited its minimum when it succeeds. -/

section
variable (s : State)

/-- R87, R131: STARTCM has settled once its byte is taken. -/
theorem exec_startcm_waits : WaitsIfOk s .startcm (exec .startcm s) := by
  obtain ⟨hrefused, hfailed, hsent⟩ := startcmSendsTheByteAndEntersCommandMode
  obtain ⟨hguard, hps⟩ | hpass := guard_cases s .poweredIdle
  · exact waitsIfOk_of_error (hrefused s hguard hps) rfl
  · cases h0 : s.replyAt 0 with
    | failed => exact waitsIfOk_of_error (hfailed s hpass h0) rfl
    | done reply => exact waitsIfOk_of_waited (hsent s reply hpass h0) rfl rfl rfl

/-- R89, R131: RDREG has waited the delay before it reads, whatever it then reads. -/
theorem exec_rdreg_waits (r : Nat) : WaitsIfOk s (.rdreg r) (exec (.rdreg r) s) := by
  obtain ⟨hindex, hrefused, hnotSent, -⟩ := rdregReadsAndValidatesTheReply
  obtain hr | hr := Nat.lt_or_ge r s.cfg.nreg
  · obtain ⟨hguard, hps⟩ | hpass := guard_cases s .commandMode
    · exact waitsIfOk_of_error (hrefused s r hr hguard hps) rfl
    cases h0 : s.replyAt 0 with
    | failed => exact waitsIfOk_of_error (hnotSent s r hr hpass h0) rfl
    | done reply => exact waitsIfOk_of_waited (exec_rdreg_sent hr hpass h0) rfl rfl rfl
  · exact waitsIfOk_of_error (hindex s r hr) rfl

/-- An operation without holds and delays waits for nothing, successful or not. -/
theorem exec_waits_of_minDuration_eq_zero {i : Instr} (hi : minDuration s.cfg i = 0) :
    WaitsIfOk s i (exec i s) := by
  obtain ⟨t, ht⟩ := exec_answers_next s i
  obtain ⟨new, r, u, rfl, hu⟩ := completion_of_exec ht
  have hwaited : waited new ≤ minDuration s.cfg i := (exec_emits ht hu.history_eq).waited_le
  refine waitsIfOk_of_waited ht (congrArg (· ++ [r]) hu.responses_eq) hu.history_eq ?_
  rw [hi] at hwaited ⊢
  exact Nat.eq_zero_of_le_zero hwaited

/-- R135: the four operations with a wait of their own, and the others. -/
theorem exec_waits (i : Instr) : WaitsIfOk s i (exec i s) := by
  cases i with
  | pwrcyc => exact waitsIfOk_of_waited (exec_pwrcyc s) rfl rfl rfl
  | startcm => exact exec_startcm_waits s
  | rdreg r => exact exec_rdreg_waits s r
  | sleep t => exact waitsIfOk_of_waited (exec_sleep s t) rfl rfl rfl
  | startnom | wrreg | rdsample | setaddr | encCfg1 | decCfg1 | encCfg2 | decCfg2 | encBridge | decBridge
  | decFactid | encGain | decGain => exact exec_waits_of_minDuration_eq_zero s rfl

end

/-- Settles O40: the given response and events are those of `exec_waits`. -/
theorem completedOperationsWaitTheirMinimum : Obligations.CompletedOperationsWaitTheirMinimum := by
  unfold Obligations.CompletedOperationsWaitTheirMinimum
  intro i s t new r hexec hnew hr hok
  obtain ⟨t', r', hexec', hr', hwaits⟩ := exec_waits s i
  cases hexec.symm.trans hexec'
  rw [hr, List.append_cancel_left_eq, List.singleton_inj] at hr'
  obtain ⟨new', hnew', hwaited⟩ := hwaits (hr' ▸ hok)
  exact List.append_cancel_left (hnew.symm.trans hnew') ▸ hwaited

end Sys2Proof.Machine
end

section
/-! ENC_CFG2 (41_config_codec.md R98 with D38): the whole answer in each of its clauses. -/

namespace Sys2Proof.Machine

/-- D38: when some code is out of its range, the check reports such a code. -/
theorem outOfRange_reports {fields : List (Nat × Nat)} (h : ¬ ∀ p ∈ fields, p.1 ≤ p.2) (pick : Nat) :
    ∃ p ∈ fields, p.2 < p.1 ∧ outOfRange pick fields = some p.1 := by
  cases hrange : outOfRange pick fields with
  | none => exact absurd (outOfRange_eq_none.mp hrange) h
  | some n =>
    obtain ⟨p, hp, hlt, rfl⟩ := outOfRange_eq_some hrange
    exact ⟨p, hp, hlt, rfl⟩

section
variable {r : ZmdiConfig2Codes}

/-- R98: an address out of range is reported. -/
theorem exec_encCfg2_of_address (h : 0x7F < r.address) (s : State) :
    exec (.encCfg2 r) s = .next (s.respond ⟨some (.fieldRange r.address), none⟩) := if_pos h

/-- D38: of a record with another code out of range, such a code is reported. -/
theorem exec_encCfg2_of_not_wellFormed (haddress : r.address ≤ 0x7F) (h : r.wellFormed = false) :
    ∃ p ∈ config2Fields r, p.2 < p.1 ∧
      ∀ s : State, exec (.encCfg2 r) s = .next (s.respond ⟨some (.fieldRange p.1), none⟩) := by
  have hcodes : ¬ ∀ p ∈ config2Fields r, p.1 ≤ p.2 := fun hcodes =>
    Bool.false_ne_true (h.symm.trans ((ZmdiConfig2Codes_wellFormed_iff r).mpr ⟨hcodes, haddress⟩))
  obtain ⟨p, hp, hlt, hrange⟩ := outOfRange_reports hcodes (Config.reportedField (.encCfg2 r))
  refine ⟨p, hp, hlt, fun s => ?_⟩
  simp only [exec, execEncCfg2, if_neg (Nat.not_lt.mpr haddress), hrange, raise]

end

/-- R68: the code a lock is encoded with. -/
theorem lock_code_eq_ite (l : Lock) : l.code = if l = .locked then 0b011 else 0b000 := by
  cases l <;> rfl

theorem encConfig2Word_eq_ofNat (r : ZmdiConfig2Codes) : encConfig2Word r = BitVec.ofNat 16
    (r.altBusPolarity ||| r.connCheck <<< 1 ||| r.shortCheck <<< 2 ||| r.address <<< 3 |||
      r.addrLock.code <<< 10 ||| r.eepromLock.code <<< 13) := by
  simp only [encConfig2Word, place_eq_ofNat, Nat.shiftLeft_zero, BitVec.ofNat_or]

/-- Settles O11: one lemma per clause; the packed word is the union R98 writes out. -/
theorem encCfg2PacksTheFields : Obligations.EncCfg2PacksTheFields := by
  unfold Obligations.EncCfg2PacksTheFields
  refine ⟨fun s r haddress => exec_encCfg2_of_address haddress s, fun s r haddress hwf => ?outOfRange,
    fun s r hwf => ?packed⟩
  case outOfRange =>
    obtain ⟨p, hp, hlt, hexec⟩ := exec_encCfg2_of_not_wellFormed haddress hwf
    exact ⟨p, hp, hlt, hexec s⟩
  case packed =>
    rw [← lock_code_eq_ite, ← lock_code_eq_ite, ← encConfig2Word_eq_ofNat]
    exact exec_encCfg2_of_wellFormed hwf s

end Sys2Proof.Machine
end
